-- ==== Sys2Proof/Word.lean ====
section
/-! DEFINITION. The words of the part: bytes of the row line and of the configuration memory, and tag serials. -/

namespace Sys2Proof

/-- A byte of the row line (R92) or of the configuration memory (R179). -/
abbrev Byte := BitVec 8

/-- A tag serial: a 32-bit number, ordered as an unsigned number (00_scope.md, section 4.1). -/
abbrev Serial := BitVec 32

end Sys2Proof
end

