-- ==== Sys2Proof/Syntax.lean ====
section
/-! DEFINITION. The commands of the part: one constructor for each row of spec/opcode_table.json. The table gives its rows
no operands; the operands here are what the event brings from outside the part (notes/assumptions/4.md), or which of two
orders that the spec leaves open is taken (notes/assumptions/6.md). An operand `wait` is the number of bit times of the row
line that pass before the event (notes/assumptions/2.md). -/

namespace Sys2Proof

/-- For work done at a frame start: whether the effect of the command on a block is taken BEFORE that block's own work for
the same frame start. The spec lets either go first (R56 for the records; R144, R152 and R173 for the counts). -/
structure Ties where
  sightings : Bool
  claims : Bool
  carriedIn : Bool
  journal : Bool
  deriving DecidableEq, Repr

/-- No effect is taken before the blocks' frame-start work. -/
def Ties.none : Ties := ⟨false, false, false, false⟩

/-- Which items of a STATUS built at a frame start are reported at their value AFTER a change of the same frame start. R115:
"Such an item is reported at its value either before or after that change. Both are correct outcomes". -/
structure StatusView where
  running : Bool
  inner : Bool
  outer : Bool
  watched : Bool
  deriving DecidableEq, Repr

/-- Every item is reported at its value before the change. -/
def StatusView.before : StatusView := ⟨false, false, false, false⟩

/-- When the staff key is read at a filter tick: before the beams, between the two works that the beams lead to, or after both. -/
inductive KeyPlace where
  | first
  | between
  | last
  deriving DecidableEq, Repr

/-- The order of same-moment work at one filter tick (R80, R155, R160, R166; notes/assumptions/6.md): the place of the staff key, and
whether the return-to-CLEAR report goes before the delivery of a passage. -/
structure TickOrder where
  key : KeyPlace
  reportFirst : Bool
  deriving DecidableEq, Repr

/-- An edge of the row line that belongs to no row of the table: its moment, in units of the clock of the free-running count,
and whether the line is high after it. A falling edge and a rising one make a glitch (R93), a falling one alone the start bit
of a character that is still on the line (R96, R97). -/
structure Edge where
  moment : Nat
  high : Bool
  deriving DecidableEq, Repr

/-- What one face's receive channel hears in one tick of a reply slot: the strongest envelope in it, and the demodulated bits,
8 to a tick (R25, R36). -/
structure FaceTick where
  envelope : Nat
  bits : List Bool
  deriving DecidableEq, Repr

/-- Why the configuration memory gave no response (R179): after `wait`, the sent byte `sent`, 0 the device address with the write
direction, 1 the word address, 2 the device address with the read direction, whose ninth clock found the data line high; or the
1,024 ticks, with `acts` steps of the transfer done by then. -/
inductive NoResponse where
  | noAcknowledge (wait sent : Nat)
  | timeout (acts : Nat)
  deriving DecidableEq, Repr

/-- The line returning high after `low` whole bit times low (R93, R95). -/
structure LowSpell where
  wait : Nat
  low : Nat
  deriving DecidableEq, Repr

/-- The line returning high after `low` whole bit times low, the levels in the middles of the 11 bit times from its fall being
`levels` (R93). -/
structure LostCharacter where
  wait : Nat
  low : Nat
  levels : BitVec 11
  deriving DecidableEq, Repr

/-- The commands, in the order of spec/opcode_table.json. -/
inductive Instr where
  /-- POWER_ON_RESET: the supply falls below the power-on level (R176). -/
  | powerOnReset
  /-- SERVICE_RESET: the reset line is asserted with the supply above the power-on level (R176). -/
  | serviceReset
  /-- RESET_END: neither reset is in force and the supply is above the hold level (R176). -/
  | resetEnd
  /-- STRAPS_SAMPLE: the four position pins, and whether the row-end pin reads low (R177). -/
  | strapsSample (pins : BitVec 4) (rowEndLow : Bool)
  /-- CONFIG_TRANSFER_COMPLETE: the bytes 0..54 read (R179, R180). -/
  | configTransferComplete (wait : Nat) (bytes : List Byte)
  /-- CONFIG_NO_RESPONSE: a missing acknowledge, or 1,024 ticks without completion (R179). -/
  | configNoResponse (cause : NoResponse)
  /-- SUPPLY_HOLD: the supply falls below the hold level (R183). -/
  | supplyHold (wait : Nat)
  /-- HOLD_RESUME: the supply rises above the hold level (R184). -/
  | holdResume
  /-- LISTENING_EXPIRY: 32,768 ticks of listening pass with no CADENCE adopted (R8). -/
  | listeningExpiry
  /-- FRAME_START: the tick position reaches a frame start (R2). -/
  | frameStart (view : StatusView)
  /-- MARK_SEND: a pending mark finds the line free (R10). -/
  | markSend
  /-- MARK_ABANDON: 256 ticks have passed from the frame 0 start (R11). -/
  | markAbandon
  /-- BREAK_RELEASE_TIMEOUT: the line has not returned high 8 bit times after the break's release (R94). -/
  | breakReleaseTimeout
  /-- TRANSMIT_WINDOW_END: the end of tick 319 (R22). -/
  | transmitWindowEnd
  /-- SLOT_END: the end of a reply slot, with the envelope of each face in each of its 18 ticks, and the bits each face demodulated in
  each of them (R25, R27). -/
  | slotEnd (slot : Nat) (westEnvelopes eastEnvelopes : List Nat) (westBits eastBits : List (List Bool))
  /-- COIL_CHECK: the coil-sense readings of both faces in the tail of frame 12 (R28). -/
  | coilCheck (westReading eastReading : Nat)
  /-- RECORD_FADE: LIVE records unheard for 25 frames (R58). -/
  | recordFade (ties : Ties)
  /-- RECORD_AGE_FREE: FADING records unheard for 100 frames, STRAY records unheard for 25 (R59). -/
  | recordAgeFree
  /-- STRAY_MARK: LIVE records whose first stamp reaches the stray age (R60). -/
  | strayMark
  /-- FILTER_TICK: the raw states of the two beams and of the two staff key inputs (R71, R182). -/
  | filterTick (innerBroken outerBroken : Bool) (ackLow serviceLow : Bool) (order : TickOrder)
  /-- BEAM_STUCK: a break duration has reached 1,500 frames (R86). -/
  | beamStuck
  /-- BREAK_RECOGNIZED: the line returns high after at least 20 bit times low (R93, R95). -/
  | breakRecognized (spell : LowSpell)
  /-- QUIET_END: the 22 bit times after a break end (R95). -/
  | quietEnd
  /-- FRAMING_ERROR: the stop bit low, and the line high again after fewer than 20 bit times low (R93). -/
  | framingError (lost : LostCharacter)
  /-- RECEIVER_IDLE_TIMEOUT: the idle count reaches 11 with a notice incomplete (R103). -/
  | receiverIdleTimeout
  /-- NOTICE_START: the idle gap is reached with no quiet running (R97). -/
  | noticeStart
  /-- COLLISION: read-back in the middle of a bit of the notice, the start bit of its lead being bit 0, finds the line low where
  a 1 was sent (R98). -/
  | collision (bit : Nat)
  /-- NOTICE_SENT: the check character's stop bit is read high with no collision (R100). -/
  | noticeSent
  /-- NOTICE_INVALID: a complete notice fails R104, or a length is not allowed (R103). -/
  | noticeInvalid
  /-- RECEIVE_CADENCE: the notice assembled is a valid CADENCE (R12). -/
  | receiveCadence
  /-- RECEIVE_STATUS (R117). -/
  | receiveStatus
  /-- RECEIVE_CALL (R131). -/
  | receiveCall
  /-- RECEIVE_EVIDENCE (R133). -/
  | receiveEvidence
  /-- EVIDENCE_DEADLINE: deadlines that have reached 0 (R130). -/
  | evidenceDeadline (ties : Ties)
  /-- RECEIVE_VERDICT (R143). -/
  | receiveVerdict
  /-- HOLD_EXPIRY: holds that have reached 0 (R145). -/
  | holdExpiry (ties : Ties)
  /-- RECEIVE_SETTLEMENT (R153). -/
  | receiveSettlement
  /-- RECEIVE_ALARM (R117). -/
  | receiveAlarm
  /-- RECEIVE_ACK (R162). -/
  | receiveAck
  /-- RECEIVE_JOURNAL_CALL (R174). -/
  | receiveJournalCall
  /-- RECEIVE_JOURNAL (R106). -/
  | receiveJournal
  /-- NEIGHBOUR_ABSENT: a silence count has reached 6 (R118). -/
  | neighbourAbsent
  /-- LINE_SILENT: the line-silence count has reached 6 (R120). -/
  | lineSilent
  /-- CLASH_CLEAR: the clash count has reached 20 (R121). -/
  | clashClear
  /-- CLAIM_EXPIRY: claims whose remaining frames have reached 0 (R144). -/
  | claimExpiry
  /-- CARRIED_IN_EXPIRY: entries whose remaining grace has reached 0 (R152). -/
  | carriedInExpiry
  /-- CHARACTER_RECEIVED: the levels in the middles of bit times 0 to 9 of a character, and that of its stop bit, high (R93, R102,
  R103). -/
  | characterReceived (wait : Nat) (levels : BitVec 10) (stop : Bool)
  deriving DecidableEq, Repr

/-- SLOT_END for what each face heard tick by tick. -/
def Instr.slotHeard (slot : Nat) (west east : List FaceTick) : Instr :=
  .slotEnd slot (west.map FaceTick.envelope) (east.map FaceTick.envelope) (west.map FaceTick.bits) (east.map FaceTick.bits)

end Sys2Proof
end

