-- ==== Sys2Proof/WellFormed.lean ====
section
/-! DEFINITION. Which commands are well formed: their operands lie in the ranges the spec gives them. `exec` is total and
does not ask for it; the sender does (notes/assumptions/4.md). -/

namespace Sys2Proof

/-- What a face hears in a slot: 18 ticks of 8 bits each (R24, R36; notes/assumptions/31.md). -/
def slotTicks (envelopes : List Nat) (bits : List (List Bool)) : Bool :=
  envelopes.length == 18 && bits.length == 18 && bits.all (fun b => b.length == 8)

/-- A step of the configuration transfer that can be the last one (R179): one of its three sent bytes, within the 1,024 ticks, or
any of its 60 steps but the last. -/
def NoResponse.wf : NoResponse → Bool
  | .noAcknowledge wait sent => sent < 3 && wait * 2048 ≤ 1024 * 15625
  | .timeout acts => acts < 60

/-- A command whose operands lie in the spec's ranges: 16 reply slots of 18 ticks (R24), coil readings 0..1023 (R29), 55 bytes of
configuration read within 1,024 ticks (R179), a low of at least 20 bit times for a break and of fewer for a framing error (R93). A
tick is 15,625 units and a bit time 2,048 (notes/assumptions/3.md). -/
def Instr.wf : Instr → Bool
  | .slotEnd slot we ee wb eb => slot < 16 && slotTicks we wb && slotTicks ee eb
  | .coilCheck w e => w ≤ 1023 && e ≤ 1023
  | .configTransferComplete wait bytes => bytes.length == 55 && wait * 2048 ≤ 1024 * 15625
  | .configNoResponse cause => cause.wf
  | .powerOnReset => true
  | .serviceReset => true
  | .resetEnd => true
  | .strapsSample _ _ => true
  | .supplyHold _ => true
  | .holdResume => true
  | .listeningExpiry => true
  | .frameStart _ => true
  | .markSend => true
  | .markAbandon => true
  | .breakReleaseTimeout => true
  | .transmitWindowEnd => true
  | .recordFade _ => true
  | .recordAgeFree => true
  | .strayMark => true
  | .filterTick _ _ _ _ _ => true
  | .beamStuck => true
  | .breakRecognized spell => 20 ≤ spell.low
  | .quietEnd => true
  | .framingError lost => lost.low < 20
  | .receiverIdleTimeout => true
  | .noticeStart => true
  | .collision _ => true
  | .noticeSent => true
  | .noticeInvalid => true
  | .receiveCadence => true
  | .receiveStatus => true
  | .receiveCall => true
  | .receiveEvidence => true
  | .evidenceDeadline _ => true
  | .receiveVerdict => true
  | .holdExpiry _ => true
  | .receiveSettlement => true
  | .receiveAlarm => true
  | .receiveAck => true
  | .receiveJournalCall => true
  | .receiveJournal => true
  | .neighbourAbsent => true
  | .lineSilent => true
  | .clashClear => true
  | .claimExpiry => true
  | .carriedInExpiry => true
  | .characterReceived _ _ _ => true

end Sys2Proof
end

