-- ==== Sys2Proof/Decode.lean ====
section
/-! DEFINITION. The words of the commands. Every row of spec/opcode_table.json has an empty list of fields: a command of this
part is an event on its pins, on its antenna faces, on the row line or in its counters, and no word spells one
(notes/assumptions/27.md). -/

namespace Sys2Proof

/-- The command a word spells by the bits of the table: none, since no row gives bits. -/
def decodeTableWord (_nbits _w : Nat) : Option Instr := none

end Sys2Proof
end

