-- ==== Sys2Proof/Config.lean ====
section
/-! DEFINITION. What the manual fixes for every part: the unit of time and the shape of the settings of the
configuration image (Table 11-2; the defaults stand in Machine/Numbers.lean). The manual leaves no value to an implementation, so there is no free value here; orders it
leaves open are operands of the commands (notes/assumptions/6.md). -/

namespace Sys2Proof

/-- One tick, 1/32,768 s, in units of 1/512,000,000 s (notes/assumptions/3.md). -/
def Config.unitsPerTick : Nat := 15625

/-- One bit time of the row line, 4 µs, in the same units. -/
def Config.unitsPerBit : Nat := 2048

/-- The latch mode (R159). -/
inductive LatchMode where
  | clearing
  | latched
  deriving DecidableEq, Repr

/-- A watch list entry (R42). -/
structure WatchEntry where
  serial : Serial
  enabled : Bool
  deriving DecidableEq, Repr

/-- The settings of the configuration image (Table 11-2). -/
structure Settings where
  settle : Nat
  noiseFloor : Nat
  normalThreshold : Nat
  soloThreshold : Nat
  evidenceFloor : Nat
  strayAge : Nat
  moveStep : Nat
  holdOff : Nat
  grace : Nat
  latchMode : LatchMode
  sounderEnable : Bool
  watch : List WatchEntry
  deriving DecidableEq, Repr

end Sys2Proof
end

