-- ==== Sys2Proof/Machine/State.lean ====
section
/-! DEFINITION. The state of the part, block by block (00_scope.md, Table 0-2), with the types of what the blocks hold, and
the state right after a power-on reset. Everything is plain data. The reset values are those of the tables R19, R33, R70,
R91, R113, R124, R150, R156, R175, R176 and Table 1-2; where the spec gives none, notes/assumptions/15.md names it. -/

namespace Sys2Proof.Machine

/-! ### Stamps and tags -/

/-- A frame stamp: super-frame number and frame index 0..24 (00_scope.md, section 4.2). -/
structure Stamp where
  superFrame : BitVec 16
  index : Nat
  deriving DecidableEq, Repr

/-- What a settled candidate means (R108, R140). -/
inductive Kind where
  | pass
  | alarm
  | turnback
  | carriedIn
  | repeated
  deriving DecidableEq, Repr

/-- The class of an alarm (R108, Table 10-1). -/
inductive AlarmClass where
  | noAlarm
  | unissued
  | watched
  deriving DecidableEq, Repr

/-- The direction of a passage (R79). -/
inductive Direction where
  | outbound
  | inbound
  | undirected
  deriving DecidableEq, Repr

/-! ### Notices of the row line (Table 6-6) -/

/-- The flags of STATUS, in the order of their bits (Table 6-6). -/
structure StatusFlags where
  westFault : Bool
  eastFault : Bool
  innerStuck : Bool
  outerStuck : Bool
  laneBusy : Bool
  service : Bool
  defaulted : Bool
  clash : Bool
  watchedTag : Bool
  fieldRunning : Bool
  deriving DecidableEq, Repr

/-- An entry of EVIDENCE (Table 6-6, R132). -/
structure EvidenceEntry where
  serial : Serial
  unissued : Bool
  watched : Bool
  west : BitVec 24
  east : BitVec 24
  reads : BitVec 16
  deriving DecidableEq, Repr

/-- An entry of VERDICT (Table 6-6, R141). -/
structure VerdictEntry where
  serial : Serial
  share : Byte
  kind : Kind
  deriving DecidableEq, Repr

/-- An entry of SETTLEMENT (Table 6-6, R148). -/
structure SettledEntry where
  serial : Serial
  kind : Kind
  deriving DecidableEq, Repr

/-- The change an ALARM notice tells (R161). -/
inductive LatchChange where
  | raised
  | classRaised
  | acknowledged
  | cleared
  deriving DecidableEq, Repr

/-- The entry a JOURNAL notice carries when present is 1 (R174). -/
structure JournalBody where
  serial : Serial
  lane : Byte
  kind : Kind
  cls : AlarmClass
  stamp : Stamp
  acknowledged : Bool
  deriving DecidableEq, Repr

/-- A notice, by kind, with its body (Table 6-6). -/
inductive Notice where
  | cadence (superFrame : BitVec 16) (delay : Byte) (deferred selfLed : Bool)
  | status (superFrame : BitVec 16) (flags : StatusFlags) (cls : AlarmClass) (acknowledged : Bool)
  | call (callId lane : Byte) (windowStart windowEnd : Stamp)
  | evidence (callId : Byte) (part : BitVec 4) (final : Bool) (entries : List EvidenceEntry)
  | verdict (callId lane : Byte) (part : BitVec 4) (final : Bool) (entries : List VerdictEntry)
  | settlement (callId lane : Byte) (part : BitVec 4) (final : Bool) (entries : List SettledEntry)
  | alarm (lane : Byte) (cls : AlarmClass) (change : LatchChange) (acknowledged : Bool)
  | ack (lane : Byte)
  | journalCall (target index : Byte)
  | journal (index : Byte) (entry : Option JournalBody)
  deriving DecidableEq, Repr

/-! ### Cadence unit (chapter 1) -/

/-- The join states (section 1.4). -/
inductive Join where
  | notJoined
  | listening
  | joined
  deriving DecidableEq, Repr

/-- A break recognized and not yet judged (R12): when, the tick position and the number at that moment, and whether the
notice in assembly has been paired with it. -/
structure PendingBreak where
  moment : Nat
  position : Nat
  superFrame : BitVec 16
  paired : Bool
  deriving DecidableEq, Repr

/-- The mark of the present super-frame: none, pending (R9), or its break or CADENCE on the line (R10). -/
inductive Mark where
  | absent
  | pending
  | inSending
  deriving DecidableEq, Repr

/-- The cadence unit. The free-running count is `clock / 15625`; the tick position is the frame's start plus `offset`. The next
filter tick falls when the count reaches `nextFilter` (R3). Of the frame in progress, the reply slots below `slotsEnded` are
over, and so is the coil check when `coilChecked` (notes/assumptions/29.md). -/
structure Cadence where
  join : Join
  clock : Nat
  frameIdx : Nat
  offset : Nat
  superFrame : BitVec 16
  startOffset : Nat
  adoptedFrame : Bool
  skips : List (Nat × Nat)
  slotKey : BitVec 4
  listenFrom : Nat
  fromHold : Bool
  lastQualifying : Option Nat
  pendingBreak : Option PendingBreak
  mark : Mark
  markFrame : BitVec 16
  selfLed : Bool
  frameOut : Bool
  nextFilter : Nat
  slotsEnded : Nat
  coilChecked : Bool
  deriving DecidableEq, Repr

/-! ### Field driver and reply sampler (chapter 2) -/

/-- A request for a change of field state (R20). -/
inductive RunRequest where
  | run
  | stop
  deriving DecidableEq, Repr

/-- The field driver (R19, R21, R22). -/
structure FieldDriver where
  running : Bool
  request : Option RunRequest
  frameRuns : Bool
  drive : Bool
  deriving DecidableEq, Repr

/-- The health of one face (R30, R31): while GOOD, `count` is the consecutive bad checks; while FAULTED, the good ones. -/
structure Face where
  faulted : Bool
  count : Nat
  deriving DecidableEq, Repr

/-- The reply sampler's own items (R33). -/
structure Sampler where
  west : Face
  east : Face
  deriving DecidableEq, Repr

/-! ### Sighting table (chapter 4) -/

/-- The state of a record (Table 4-1): a STRAY record has an anchor, the others have none. -/
inductive RecordState where
  | live
  | fading
  | stray (anchorWest anchorEast : Nat)
  deriving DecidableEq, Repr

/-- A sighting record (Table 4-1). The table keeps its records in rising order of serial (notes/assumptions/7.md). -/
structure Record where
  serial : Serial
  unissued : Bool
  watched : Bool
  state : RecordState
  firstStamp : Stamp
  lastStamp : Stamp
  westSum : Nat
  eastSum : Nat
  reads : Nat
  lastWest : Nat
  lastEast : Nat
  deriving DecidableEq, Repr

/-! ### Lane monitor (chapter 5) -/

/-- One beam: its filter (R71), its break duration (R85) and its STUCK fault (R86). -/
structure Beam where
  broken : Bool
  differ : Bool
  duration : Nat
  stuck : Bool
  deriving DecidableEq, Repr

/-- The passage states (Table 5-1). -/
inductive Passage where
  | clear
  | outOpening
  | outSpanned
  | outClosing
  | inOpening
  | inSpanned
  | inClosing
  | bothSpanned
  | waitClear
  | tagOnly
  deriving DecidableEq, Repr

/-- The lane monitor (R91). -/
structure LaneMonitor where
  started : Bool
  inner : Beam
  outer : Beam
  passage : Passage
  startStamp : Option Stamp
  clearRun : Nat
  deriving DecidableEq, Repr

/-! ### Row line controller (chapter 6) -/

/-- The transmitter states (Table 6-3). -/
inductive TxState where
  | off
  | waiting
  | brk
  | sending
  deriving DecidableEq, Repr

/-- The receiver states (Table 6-4); a notice in assembly holds the bytes taken so far, lead first, and whether the part's
own transmitter has sent them all (R102, R105). -/
inductive RxState where
  | off
  | hunting
  | assembling (bytes : List Byte) (own : Bool)
  deriving DecidableEq, Repr

/-- A notice in the outgoing queue (R98, R109). -/
structure Queued where
  notice : Notice
  attempts : Nat
  inTransmission : Bool
  withdrawn : Bool
  deriving DecidableEq, Repr

/-- The row line controller (R113). A character being sent is its byte and its lead flag. An edge or the part's own break has taken
the line low at `lowFrom`, and no end of a character or break, or rising edge, has followed it; while the line is free there is no
such moment (R94, R96). In BREAK, `sending` is empty until the line has returned high, and holds the CADENCE that begins at `txFrom`
from then on (R94). `edges` is an input of the model, like the queue of commands: the edges of the line since its last character or
break that no command has told, which the environment adds to (notes/assumptions/14.md). -/
structure RowLine where
  tx : TxState
  sending : List (Byte × Bool)
  txFrom : Nat
  queue : List Queued
  backoff : Bool
  rx : RxState
  idleFrom : Nat
  lowFrom : Option Nat
  quietFrom : Option Nat
  dropped : List Notice
  edges : List Edge
  deriving DecidableEq, Repr

/-! ### Neighbour table (chapter 7) -/

/-- The state of a neighbour record (R116). -/
inductive Presence where
  | unknown
  | present
  | absent
  deriving DecidableEq, Repr

/-- The west record (R116): `none` for a lane busy not reported. -/
structure WestRecord where
  presence : Presence
  silence : Nat
  laneBusy : Option Bool
  latchClass : AlarmClass
  latchAcknowledged : Bool
  deriving DecidableEq, Repr

/-- The east record (R116): `none` for a west face fault not reported. -/
structure EastRecord where
  presence : Presence
  silence : Nat
  westFault : Option Bool
  deriving DecidableEq, Repr

/-- The neighbour table (R124). -/
structure Neighbours where
  west : WestRecord
  east : EastRecord
  lineSilence : Nat
  lineSilent : Bool
  clash : Bool
  clashCount : Nat
  deriving DecidableEq, Repr

/-! ### Adjudicator (chapter 8) -/

/-- What opened an adjudication (Table 8-1). -/
inductive Trigger where
  | passage
  | fade
  deriving DecidableEq, Repr

/-- What has arrived from the partner (Table 8-1). -/
inductive PartnerEvidence where
  | nothing
  | incomplete
  | final
  deriving DecidableEq, Repr

/-- The threshold in force (R137). -/
inductive Threshold where
  | normal
  | solo
  deriving DecidableEq, Repr

/-- What weighing made of a candidate (R139, R140). -/
inductive Outcome where
  | notAttributed
  | attributed (kind : Kind)
  deriving DecidableEq, Repr

/-- A candidate (Table 8-2); `share` and `outcome` are none until weighing sets them. -/
structure Candidate where
  serial : Serial
  unissued : Bool
  watched : Bool
  ownWest : Nat
  ownEast : Nat
  partnerWest : Nat
  partnerEast : Nat
  reads : Nat
  share : Option Nat
  outcome : Option Outcome
  yielded : Bool
  deriving DecidableEq, Repr

/-- The state of an adjudication (Table 8-1). -/
inductive AdjState where
  | collecting
  | holding
  deriving DecidableEq, Repr

/-- An adjudication (Table 8-1); a deadline or a hold not started is none. -/
structure Adjudication where
  callId : Byte
  lane : Nat
  trigger : Trigger
  direction : Direction
  windowStart : Stamp
  windowEnd : Stamp
  state : AdjState
  evidence : PartnerEvidence
  parts : List (BitVec 4)
  threshold : Option Threshold
  candidates : List Candidate
  deadline : Option Nat
  hold : Option Nat
  deriving DecidableEq, Repr

/-- A claim (R143). -/
structure Claim where
  serial : Serial
  lane : Nat
  share : Nat
  callId : Byte
  remaining : Nat
  deriving DecidableEq, Repr

/-- The adjudicator (R150). -/
structure Adjudicator where
  list : List Adjudication
  claims : List Claim
  nextCall : Byte
  deriving DecidableEq, Repr

/-! ### Carried-in list (chapter 9) and alarm unit (chapter 10) -/

/-- A carried-in entry (Table 9-1). -/
structure CarriedEntry where
  serial : Serial
  grace : Nat
  deriving DecidableEq, Repr

/-- The lane latch (Table 10-1). -/
structure Latch where
  cls : AlarmClass
  acknowledged : Bool
  clearPending : Bool
  deriving DecidableEq, Repr

/-- A journal entry (Table 10-3). -/
structure JournalEntry where
  serial : Serial
  lane : Nat
  kind : Kind
  cls : AlarmClass
  stamp : Stamp
  age : Nat
  acknowledged : Bool
  deriving DecidableEq, Repr

/-- The alarm unit (R175). -/
structure AlarmUnit where
  latch : Latch
  journal : List JournalEntry
  cursor : Nat
  deriving DecidableEq, Repr

/-! ### Start-up and supply (chapter 11) -/

/-- The states of the start-up and supply block (Table 11-1). -/
inductive StartState where
  | reset
  | straps
  | config
  | strapFault
  | listening
  | joined
  | hold
  deriving DecidableEq, Repr

/-- The straps as sampled (R177): the position 0..15, and whether the part is an end pedestal. -/
structure Straps where
  position : Nat
  endPedestal : Bool
  deriving DecidableEq, Repr

/-- The kind of a reset (R176). -/
inductive ResetKind where
  | powerOn
  | service
  deriving DecidableEq, Repr

/-- The state to resume after a hold (R183). -/
inductive ResumeTo where
  | straps
  | strapFault
  | listening
  deriving DecidableEq, Repr

/-- The supply against its two levels (R176). -/
inductive Supply where
  | belowPowerOn
  | between
  | aboveHold
  deriving DecidableEq, Repr

/-- The positions of the staff key (R182). -/
inductive KeyPosition where
  | run
  | ack
  | service
  deriving DecidableEq, Repr

/-- What the part does on the configuration port (R179): conditions, bytes sent, and bytes read with or without the part's
acknowledge. -/
inductive PortAct where
  | start
  | repeatedStart
  | send (byte : Byte)
  | read (acknowledged : Bool)
  | stop
  deriving DecidableEq, Repr

/-- The start-up and supply block (R176). -/
structure StartUp where
  state : StartState
  straps : Option Straps
  image : Option Settings
  defaulted : Bool
  resetKind : ResetKind
  resumeTo : Option ResumeTo
  supply : Supply
  key : KeyPosition
  keyPending : Option KeyPosition
  keyStarted : Bool
  configFrom : Nat
  port : List PortAct
  deriving DecidableEq, Repr

/-! ### The state -/

/-- The state of the part, and the queue of commands that wait, the front first. -/
structure State where
  cadence : Cadence
  field : FieldDriver
  sampler : Sampler
  sightings : List Record
  lane : LaneMonitor
  line : RowLine
  neighbours : Neighbours
  adj : Adjudicator
  carried : List CarriedEntry
  alarm : AlarmUnit
  startup : StartUp
  pending : List Instr
  deriving DecidableEq, Repr

/-- The reasons for a command to stop the machine. There is none: every fault the spec knows is a state it describes
(notes/assumptions/28.md), so no meaning raises one, and this is safe. -/
inductive Fault where
  deriving DecidableEq, Repr

/-- The refusals. -/
inductive Refusal where
  /-- Raised only by an arm of `exec` for a command with no meaning yet; no arm does. Safe: the machine stops. -/
  | notModelled (mnemonic : String)
  deriving DecidableEq, Repr

/-! ### Power-on reset values -/

/-- Table 1-2. -/
def Cadence.reset : Cadence where
  join := .notJoined
  clock := 0
  frameIdx := 0
  offset := 0
  superFrame := 0
  startOffset := 0
  adoptedFrame := false
  skips := []
  slotKey := 0
  listenFrom := 0
  fromHold := false
  lastQualifying := none
  pendingBreak := none
  mark := .absent
  markFrame := 0
  selfLed := false
  frameOut := false
  nextFilter := 32
  slotsEnded := 0
  coilChecked := false

/-- R19. -/
def FieldDriver.reset : FieldDriver := ⟨false, none, false, false⟩

/-- R33. -/
def Sampler.reset : Sampler := ⟨⟨false, 0⟩, ⟨false, 0⟩⟩

/-- R91. -/
def Beam.reset : Beam := ⟨false, false, 0, false⟩

/-- R91. -/
def LaneMonitor.reset : LaneMonitor := ⟨false, .reset, .reset, .waitClear, none, 0⟩

/-- R113. -/
def RowLine.reset : RowLine := ⟨.off, [], 0, [], false, .off, 0, none, none, [], []⟩

/-- R116: a record that has heard nothing. -/
def WestRecord.reset : WestRecord := ⟨.unknown, 0, none, .noAlarm, false⟩

/-- R116: a record that has heard nothing. -/
def EastRecord.reset : EastRecord := ⟨.unknown, 0, none⟩

/-- R124. -/
def Neighbours.reset : Neighbours := ⟨.reset, .reset, 0, false, false, 0⟩

/-- R150. -/
def Adjudicator.reset : Adjudicator := ⟨[], [], 0⟩

/-- R159: class NONE, acknowledged no, clear pending no. -/
def Latch.reset : Latch := ⟨.noAlarm, false, false⟩

/-- R175. -/
def AlarmUnit.reset : AlarmUnit := ⟨.reset, [], 0⟩

/-- R176. -/
def StartUp.reset : StartUp where
  state := .reset
  straps := none
  image := none
  defaulted := false
  resetKind := .powerOn
  resumeTo := none
  supply := .belowPowerOn
  key := .run
  keyPending := none
  keyStarted := false
  configFrom := 0
  port := []

/-- The machine right after a power-on reset: every block at its power-on reset values (R176), no command waiting. -/
def State.reset : State where
  cadence := .reset
  field := .reset
  sampler := .reset
  sightings := []
  lane := .reset
  line := .reset
  neighbours := .reset
  adj := .reset
  carried := []
  alarm := .reset
  startup := .reset
  pending := []

end Sys2Proof.Machine
end

