-- ==== Sys2Proof/Machine/Numbers.lean ====
section
/-! DEFINITION. The principal numbers of the manual (00_scope.md, Table 0-5) and the default settings (Table 11-2). -/

namespace Sys2Proof.Machine

/-- The defaults of Table 11-2: "every setting takes its default and all eight watch entries are disabled" (R180). The serial
0 of the disabled entries is the model's choice, and nothing reads it (notes/assumptions/43.md). -/
def defaultSettings : Settings where
  settle := 12
  noiseFloor := 40
  normalThreshold := 160
  soloThreshold := 192
  evidenceFloor := 2048
  strayAge := 750
  moveStep := 96
  holdOff := 500
  grace := 6000
  latchMode := .clearing
  sounderEnable := true
  watch := List.replicate 8 ⟨0, false⟩

/-- R46: the sighting table holds at most 48 records. -/
def maxRecords : Nat := 48
/-- R63: at most 16 records are STRAY. -/
def maxStrays : Nat := 16
/-- R55. -/
def maxSum : Nat := 16777215
/-- R55. -/
def maxReads : Nat := 65535
/-- R111: the outgoing queue holds at most 12 notices. -/
def maxQueue : Nat := 12
/-- R125: at most 4 adjudications. -/
def maxAdjudications : Nat := 4
/-- R125, R131: at most 24 candidates, and 24 entries of an answer. -/
def maxCandidates : Nat := 24
/-- R143: at most 32 claims. -/
def maxClaims : Nat := 32
/-- R143: a claim lasts 10 frames. -/
def claimFrames : Nat := 10
/-- R151: at most 32 carried-in entries. -/
def maxCarried : Nat := 32
/-- R173: at most 32 journal entries. -/
def maxJournal : Nat := 32
/-- R86: frames after which a broken beam is stuck. -/
def stuckFrames : Nat := 1500
/-- R118, R120: frame 0 starts of silence. -/
def silentFrames : Nat := 6
/-- R121: frame 0 starts after the last clash trigger. -/
def clashFrames : Nat := 20
/-- R130. -/
def deadlineFrames : Nat := 5
/-- R145. -/
def holdFrames : Nat := 3
/-- R99. -/
def maxAttempts : Nat := 8
/-- R8: listening lasts 32,768 ticks. -/
def listeningTicks : Nat := 32768

end Sys2Proof.Machine
end

