-- ==== Sys2Proof/Machine/Stamps.lean ====
section
/-! DEFINITION. Frame stamps and the layout of frames (00_scope.md, sections 4.2 and 4.3; R1, R4, R5). -/

namespace Sys2Proof.Machine

/-- Where frame `i` begins within its super-frame: `655 × i + floor(9 × i / 25)` (R1). -/
def frameBegin (i : Nat) : Nat := 655 * i + 9 * i / 25

/-- The length of frame `i`, 655 or 656 ticks (00_scope.md, section 4.2). -/
def frameLength (i : Nat) : Nat := frameBegin (i + 1) - frameBegin i

/-- The slot key of a frame: `(9 × super-frame number + index) mod 16` (R5). -/
def slotKeyOf (st : Stamp) : BitVec 4 := BitVec.ofNat 4 (9 * st.superFrame.toNat + st.index)

/-- The difference in frames from stamp `b` to stamp `a`: the super-frame difference read in −32,768..32,767, times 25, plus
the difference of the indices (00_scope.md, section 4.2). -/
def stampDiff (b a : Stamp) : Int := (a.superFrame - b.superFrame).toInt * 25 + ((a.index : Int) - (b.index : Int))

/-- The stamp of the next frame (R4). -/
def Stamp.next (s : Stamp) : Stamp :=
  if s.index < 24 then ⟨s.superFrame, s.index + 1⟩ else ⟨s.superFrame + 1, 0⟩

/-- The stamp `n` frames before (for R57, R81, R87, R126). -/
def Stamp.before (s : Stamp) (n : Nat) : Stamp :=
  let all := (s.superFrame.toNat * 25 + s.index + 65536 * 25 * (n / (65536 * 25) + 1) - n) % (65536 * 25)
  ⟨BitVec.ofNat 16 (all / 25), all % 25⟩

/-- Offset of the start of reply slot `j`: `320 + S + 18j` (Table 0-3). -/
def slotBegin (settle j : Nat) : Nat := 320 + settle + 18 * j

/-- Offset of the start of the tail: `608 + S` (R5). -/
def tailBegin (settle : Nat) : Nat := 608 + settle

/-- The carrier pattern of the transmit window (R22, Table 2-1): whether offset `t` of a running frame with this key is
carrier. In ticks 0..31 a cell of 8 ticks carries one bit of the key, the highest first; a 0 leaves out its last 3 ticks. -/
def carrierPattern (key : BitVec 4) (t : Nat) : Bool :=
  if t < 32 then t % 8 < 5 || key.getLsbD (3 - t / 8) else t < 320

end Sys2Proof.Machine
end

