-- ==== Sys2Proof/Machine/Ops.lean ====
section
/-! DEFINITION. The named operations every meaning is built from: replacing one block of the state, the part's position and
settings, and the clock (R1 to R4, R8, R96). -/

namespace Sys2Proof.Machine

/-! ### Replacing one block -/

/-- The state with another `cadence` block. -/
def State.withCadence (s : State) (b : Cadence) : State := { s with cadence := b }

/-- The state with another `field` block. -/
def State.withField (s : State) (b : FieldDriver) : State := { s with field := b }

/-- The state with another `sampler` block. -/
def State.withSampler (s : State) (b : Sampler) : State := { s with sampler := b }

/-- The state with another `sightings` block. -/
def State.withSightings (s : State) (b : List Record) : State := { s with sightings := b }

/-- The state with another `lane` block. -/
def State.withLane (s : State) (b : LaneMonitor) : State := { s with lane := b }

/-- The state with another `line` block. -/
def State.withLine (s : State) (b : RowLine) : State := { s with line := b }

/-- The state with another `neighbours` block. -/
def State.withNeighbours (s : State) (b : Neighbours) : State := { s with neighbours := b }

/-- The state with another `adj` block. -/
def State.withAdj (s : State) (b : Adjudicator) : State := { s with adj := b }

/-- The state with another `carried` block. -/
def State.withCarried (s : State) (b : List CarriedEntry) : State := { s with carried := b }

/-- The state with another `alarm` block. -/
def State.withAlarm (s : State) (b : AlarmUnit) : State := { s with alarm := b }

/-- The state with another `startup` block. -/
def State.withStartup (s : State) (b : StartUp) : State := { s with startup := b }

/-! ### Position, lane and settings -/

/-- The part's strap position, 0 while the straps have not been read (R177). -/
def State.position (s : State) : Nat :=
  match s.startup.straps with
  | some x => x.position
  | none => 0

/-- Whether the straps have been read and make the part an end pedestal (R177). -/
def State.endPedestal (s : State) : Bool :=
  match s.startup.straps with
  | some x => x.endPedestal
  | none => false

/-- Whether the part owns a lane, numbered as its position (R177): its straps gave 1..8 and it is no end pedestal. -/
def State.ownsLane (s : State) : Bool := 1 ≤ s.position && s.position ≤ 8 && !s.endPedestal

/-- The part's position as the byte of a lane field. -/
def State.laneByte (s : State) : Byte := BitVec.ofNat 8 s.position

/-- The settings in force: those of the configuration image; the defaults while no image has been read, when no block uses
one (R180; notes/assumptions/16.md). -/
def State.settings (s : State) : Settings := s.startup.image.getD defaultSettings

/-- Whether the cadence unit is JOINED. -/
def State.isJoined (s : State) : Bool := s.cadence.join == .joined

/-- Whether the free-running count runs: the start-up block is in neither RESET nor HOLD (R3, R176, R183). -/
def State.clockRuns (s : State) : Bool := s.startup.state != .reset && s.startup.state != .hold

/-! ### The clock -/

/-- The free-running tick count (R3). -/
def State.freeRun (s : State) : Nat := s.cadence.clock / Config.unitsPerTick

/-- The frame stamp of the frame in progress (R4). -/
def State.stamp (s : State) : Stamp := ⟨s.cadence.superFrame, s.cadence.frameIdx⟩

/-- The tick position within the super-frame, 0..16,383 (R1). It stands at the last tick of a frame whose successor has not
been started yet (notes/assumptions/8.md). -/
def State.tickPosition (s : State) : Nat :=
  frameBegin s.cadence.frameIdx + min s.cadence.offset (frameLength s.cadence.frameIdx - 1)

/-- The cadence unit `u` units of time later: the free-running count rises at every tick, the offset within the frame too
while JOINED (R1). -/
def Cadence.advance (c : Cadence) (u : Nat) : Cadence :=
  { c with
    clock := c.clock + u
    offset :=
      if c.join = .joined then
        c.offset + ((c.clock + u) / Config.unitsPerTick - c.clock / Config.unitsPerTick)
      else c.offset }

/-- `u` units of time pass; none while the clock is stopped (R183). -/
def State.advance (s : State) (u : Nat) : State :=
  if s.clockRuns then s.withCadence (s.cadence.advance u) else s

/-- `n` bit times pass. -/
def State.waitBits (s : State) (n : Nat) : State := s.advance (n * Config.unitsPerBit)

/-- Time passes until the clock shows `m`; none when it is there or past it. -/
def State.toMoment (s : State) (m : Nat) : State := s.advance (m - s.cadence.clock)

/-- Time passes until the free-running count reaches tick `t`. -/
def State.toTick (s : State) (t : Nat) : State := s.toMoment (t * Config.unitsPerTick)

/-- Time passes until the frame in progress reaches offset `o`; none when it is there or past it. -/
def State.toOffset (s : State) (o : Nat) : State := s.toTick (s.freeRun + (o - s.cadence.offset))

/-- Whether the transmitter is SENDING, or in the 2 bit times of BREAK before the lead character of its CADENCE (R94). -/
def RowLine.sends (l : RowLine) : Bool := l.tx == .sending || (l.tx == .brk && !l.sending.isEmpty)

/-- The transmitter's state now (Table 6-3): the 2 bit times after the own break over, it is SENDING from the moment at which the
lead character begins (R94; notes/assumptions/11.md). -/
def State.transmitter (s : State) : TxState :=
  if s.line.sends && s.line.txFrom ≤ s.cadence.clock then .sending else s.line.tx

/-- The idle count: whole bit times for which the line has been high since the end of the last stop bit or break and since its
last edge, saturating at 255; 0 while it is low, and while the part itself sends, since its start bits follow one another (R96;
notes/assumptions/14.md). -/
def State.idleCount (s : State) : Nat :=
  if s.line.lowFrom.isSome || s.transmitter == .sending then 0
  else min 255 ((s.cadence.clock - s.line.idleFrom) / Config.unitsPerBit)

/-- An edge of the line (R96): the idle count becomes 0 at a falling edge, and runs again from the moment the line returns
high. -/
def RowLine.takeEdge (l : RowLine) (e : Edge) : RowLine :=
  if e.high then { l with lowFrom := none, idleFrom := max l.idleFrom e.moment }
  else { l with lowFrom := some (l.lowFrom.getD e.moment) }

/-- Time passes to an edge, and the line takes it. -/
def State.takeEdge (s : State) (e : Edge) : State := (s.toMoment e.moment).withLine (s.line.takeEdge e)

/-- Whether an edge comes before the moment at which the line has been high for `gap` bit times, or before now when that is later,
by at least `blind`; on a line that is low every edge does. -/
def State.seesEdge (s : State) (gap blind : Nat) (e : Edge) : Bool :=
  s.line.lowFrom.isSome || e.moment + blind ≤ max s.cadence.clock (s.line.idleFrom + gap * Config.unitsPerBit)

/-- Edges of the line taken in their order, up to the first that is not seen; it and the later ones go on waiting. -/
def State.takeEdges (gap blind : Nat) : State → List Edge → State
  | s, [] => s.withLine { s.line with edges := [] }
  | s, e :: es =>
    if s.seesEdge gap blind e then State.takeEdges gap blind (s.takeEdge e) es
    else s.withLine { s.line with edges := e :: es }

/-- The edges that wait on the line are taken; one from before the end of the last character or break belongs to it. While the
receiver is OFF the part watches no line (R101). -/
def State.readEdges (s : State) (gap blind : Nat) : State :=
  if s.line.rx = .off then s
  else s.takeEdges gap blind (s.line.edges.filter (fun e => decide (s.line.idleFrom ≤ e.moment)))

/-! ### Lists -/

/-- The element that is best by `better x y` ("x goes before y"); the earliest of equals. -/
def pickBest {α : Type} (better : α → α → Bool) : List α → Option α
  | [] => none
  | x :: xs =>
    match pickBest better xs with
    | none => some x
    | some y => if better y x then some y else some x

/-- Insertion into a list kept in order by `before x y` ("x goes before y"); after its equals. -/
def insertBy {α : Type} (before : α → α → Bool) (x : α) : List α → List α
  | [] => [x]
  | y :: ys => if before x y then x :: y :: ys else y :: insertBy before x ys

/-- A list put in order by `before`. -/
def sortBy {α : Type} (before : α → α → Bool) : List α → List α
  | [] => []
  | x :: xs => insertBy before x (sortBy before xs)

/-- A list cut into parts of `n`, in order; `fuel` bounds the number of parts. -/
def cutInto {α : Type} (n : Nat) : Nat → List α → List (List α)
  | 0, _ => []
  | _ + 1, [] => []
  | fuel + 1, l => l.take n :: cutInto n fuel (l.drop n)

/-- The parts of a notice body of several notices: `n` entries to a part; one empty part for no entries (R131, R141, R148). -/
def partsOf {α : Type} (n : Nat) (l : List α) : List (List α) :=
  if l.isEmpty then [[]] else cutInto n l.length l

/-- The parts numbered from 0, the last one marked final (R108). -/
def numberParts {α : Type} (ps : List (List α)) : List (BitVec 4 × Bool × List α) :=
  ps.zipIdx.map (fun (p, i) => (BitVec.ofNat 4 i, i + 1 == ps.length, p))

/-- Addition that stays at `top` (00_scope.md, section 4.1: "saturating"). -/
def saturate (top a : Nat) : Nat := min top a

end Sys2Proof.Machine
end

