-- ==== Sys2Proof/Machine/LaneMonitor.lean ====
section
/-! DEFINITION. The lane monitor (chapter 5): beam filters (R71, R72), the passage state machine (R73 to R79), start stamps
(R81, R82), the clear run (R83), break durations (R85), stuck beams (R86, R88), the FADE trigger (R87) and the resume (R90). -/

namespace Sys2Proof.Machine

/-- A filtered change of a beam at a filter tick. -/
inductive Change where
  | same
  | broken
  | cleared
  deriving DecidableEq, Repr

/-- The filter of a beam at a filter tick (R71): a change at the second of two consecutive differing samples. A filtered CLEAR
clears a STUCK fault (R88); both changes set the break duration to 0 (R85). -/
def Beam.sample (b : Beam) (raw : Bool) : Beam × Change :=
  if raw = b.broken then ({ b with differ := false }, .same)
  else if b.differ then
    if raw then (⟨true, false, 0, b.stuck⟩, .broken) else (⟨false, false, 0, false⟩, .cleared)
  else ({ b with differ := true }, .same)

/-- The filter at the first filter tick: "each filter takes the raw sample as its filtered state directly" (R72). -/
def Beam.first (raw : Bool) : Beam := ⟨raw, false, 0, false⟩

/-- What a transition gives. -/
inductive Move where
  /-- To another state, or the same. -/
  | to (p : Passage)
  /-- Back to CLEAR from an opening state (R77). -/
  | balk
  /-- A completed passage, to CLEAR (R79). -/
  | complete (d : Direction)
  deriving DecidableEq, Repr

/-- The transitions of CLEAR and of the passage states in progress (Table 5-2, R73 to R77). Changes that the table does not
list cannot reach the state, and leave it. -/
def Passage.move (p : Passage) (inner outer : Change) : Move :=
  match p, inner, outer with
  | .clear, .broken, .same => .to .outOpening
  | .clear, .same, .broken => .to .inOpening
  | .clear, .broken, .broken => .to .bothSpanned
  | .outOpening, .cleared, .same => .balk
  | .outOpening, .same, .broken => .to .outSpanned
  | .outOpening, .cleared, .broken => .to .outClosing
  | .outSpanned, .cleared, .same => .to .outClosing
  | .outSpanned, .same, .cleared => .to .outOpening
  | .outSpanned, .cleared, .cleared => .complete .undirected
  | .outClosing, .broken, .same => .to .outSpanned
  | .outClosing, .same, .cleared => .complete .outbound
  | .outClosing, .broken, .cleared => .to .outOpening
  | .inOpening, .broken, .same => .to .inSpanned
  | .inOpening, .same, .cleared => .balk
  | .inOpening, .broken, .cleared => .to .inClosing
  | .inSpanned, .cleared, .same => .to .inOpening
  | .inSpanned, .same, .cleared => .to .inClosing
  | .inSpanned, .cleared, .cleared => .complete .undirected
  | .inClosing, .cleared, .same => .complete .inbound
  | .inClosing, .same, .broken => .to .inSpanned
  | .inClosing, .cleared, .broken => .to .inOpening
  | .bothSpanned, .cleared, .same => .to .outClosing
  | .bothSpanned, .same, .cleared => .to .inClosing
  | .bothSpanned, .cleared, .cleared => .complete .undirected
  | p, _, _ => .to p

/-- The seven passage states in progress (section 5.2). -/
def Passage.inProgress : Passage → Bool
  | .outOpening => true
  | .outSpanned => true
  | .outClosing => true
  | .inOpening => true
  | .inSpanned => true
  | .inClosing => true
  | .bothSpanned => true
  | .clear => false
  | .waitClear => false
  | .tagOnly => false

/-- A completed passage (R79). -/
structure Completed where
  direction : Direction
  startStamp : Stamp
  endStamp : Stamp
  deriving DecidableEq, Repr

/-- What a filter tick gives besides the new state: a completed passage, and whether CLEAR was entered (R80). -/
structure LaneEvent where
  completed : Option Completed
  enteredClear : Bool
  deriving DecidableEq, Repr

/-- Nothing comes of the tick. -/
def LaneEvent.nothing : LaneEvent := ⟨none, false⟩

/-- The passage built at a completion: "if the end stamp is earlier than the start stamp ... the start stamp of the passage is
set equal to the end stamp" (R79). -/
def completedAt (d : Direction) (start : Option Stamp) (now : Stamp) : Completed :=
  let a := start.getD now
  ⟨d, if stampDiff a now < 0 then now else a, now⟩

/-- The lane at the state CLEAR: no start stamp. -/
def LaneMonitor.toClear (l : LaneMonitor) : LaneMonitor := { l with passage := .clear, startStamp := none }

/-- WAIT_CLEAR becomes CLEAR at a tick at which both filtered states are CLEAR (R78). -/
def LaneMonitor.waitClear (l : LaneMonitor) : LaneMonitor × LaneEvent :=
  if l.inner.broken || l.outer.broken then ({ l with passage := .waitClear, startStamp := none }, .nothing)
  else (l.toClear, ⟨none, true⟩)

/-- The state machine after the filters, with their changes (R73 to R79, R88); `now` is the current stamp. -/
def LaneMonitor.react (l : LaneMonitor) (now : Stamp) (ci co : Change) : LaneMonitor × LaneEvent :=
  match l.passage with
  | .waitClear => l.waitClear
  | .tagOnly => if l.inner.stuck || l.outer.stuck then (l, .nothing) else l.waitClear
  | p =>
    match p.move ci co with
    | .balk => (l.toClear, ⟨none, true⟩)
    | .complete d => (l.toClear, ⟨some (completedAt d l.startStamp now), true⟩)
    | .to q =>
      if p = .clear ∧ q ≠ .clear then
        ({ l with passage := q, startStamp := some now, clearRun := 0 }, .nothing)
      else ({ l with passage := q }, .nothing)

/-- A filter tick of a lane monitor at work (R71, R73), or its first one (R72). An end pedestal's monitor disregards the beams;
its passage state is CLEAR from the first filter tick (R72), also when the straps that make it one are read after that tick. A monitor
whose first tick after a resume to STRAPS was that of an end pedestal, and whose straps are then read as those of no end pedestal, goes on
filtering from CLEAR beams: the model's choice (notes/assumptions/42.md). -/
def LaneMonitor.tick (l : LaneMonitor) (endPedestal : Bool) (now : Stamp) (inner outer : Bool) : LaneMonitor × LaneEvent :=
  if endPedestal then
    if l.started && l.passage == .clear then (l, .nothing)
    else ({ l.toClear with started := true, inner := .reset, outer := .reset }, ⟨none, true⟩)
  else if l.started then
    let (bi, ci) := l.inner.sample inner
    let (bo, co) := l.outer.sample outer
    LaneMonitor.react { l with inner := bi, outer := bo } now ci co
  else LaneMonitor.waitClear { l with started := true, inner := .first inner, outer := .first outer }

/-! ### Frame starts -/

/-- A break duration at a frame start (R85). -/
def Beam.countFrame (b : Beam) : Beam :=
  if b.broken then { b with duration := min stuckFrames (b.duration + 1) } else b

/-- The loiter clamp (R81): a start stamp more than 500 frames before the frame that begins is set to 500 before it. -/
def loiterClamp (now st : Stamp) : Stamp := if 500 < stampDiff st now then now.before 500 else st

/-- The lane monitor's frame-start work (R81, R83, R85); `now` is the stamp of the frame that begins. -/
def LaneMonitor.frameStart (l : LaneMonitor) (now : Stamp) : LaneMonitor :=
  if l.started then
    { l with
      inner := l.inner.countFrame
      outer := l.outer.countFrame
      startStamp := if l.passage.inProgress then l.startStamp.map (loiterClamp now) else l.startStamp
      clearRun := if l.passage = .clear then saturate 65535 (l.clearRun + 1) else l.clearRun }
  else l

/-- A beam whose break duration has reached 1,500 becomes STUCK (R86). -/
def Beam.raiseStuck (b : Beam) : Beam := if stuckFrames ≤ b.duration ∧ b.broken = true then { b with stuck := true } else b

/-- STUCK faults raised, and the lane to TAG_ONLY with its passage dropped (R86). -/
def LaneMonitor.raiseStuck (l : LaneMonitor) : LaneMonitor :=
  let l' := { l with inner := l.inner.raiseStuck, outer := l.outer.raiseStuck }
  if l'.inner.stuck || l'.outer.stuck then { l' with passage := .tagOnly, startStamp := none, clearRun := 0 } else l'

/-- A passage in progress takes another start stamp (R17, R82). -/
def LaneMonitor.restamp (l : LaneMonitor) (now : Stamp) : LaneMonitor :=
  if l.passage.inProgress then { l with startStamp := some now } else l

/-- The values the lane monitor takes at a resume from supply hold (R90, R91). -/
def LaneMonitor.resume (l : LaneMonitor) : LaneMonitor :=
  { l with
    started := false
    inner := { l.inner with differ := false, duration := 0, stuck := false }
    outer := { l.outer with differ := false, duration := 0, stuck := false }
    passage := .waitClear
    startStamp := none
    clearRun := 0 }

/-! ### The FADE trigger (R87) -/

/-- Whether a fading report gives a trigger: effectively UNISSUED, and heard at least as much east as west (R87). -/
def fadeTriggers (r : Record) : Bool := (r.unissued || r.watched) && r.westSum ≤ r.eastSum

/-- The start stamp of a FADE trigger: at most 500 frames before its end, and not later than it (R87). -/
def fadeStart (r : Record) : Stamp :=
  let d := stampDiff r.firstStamp r.lastStamp
  if 500 < d then r.lastStamp.before 500 else if d < 0 then r.lastStamp else r.firstStamp

end Sys2Proof.Machine
end

