-- ==== Sys2Proof/Machine/Bytes.lean ====
section
/-! DEFINITION. Bytes and bits: the CRC-8 of the conventions (R36), byte order (R107: "the highest byte is sent first"), and
the characters of the line (R92). -/

namespace Sys2Proof.Machine

/-- One shift of the check register: the bit shifted out selects 07h (R36). -/
def crcShift (r : Byte) : Byte := if r.msb then (r <<< 1) ^^^ 0x07#8 else r <<< 1

/-- One byte into the check register: exclusive-OR, then eight shifts (R36). -/
def crcByte (r b : Byte) : Byte :=
  crcShift (crcShift (crcShift (crcShift (crcShift (crcShift (crcShift (crcShift (r ^^^ b))))))))

/-- The CRC-8 over the bytes, initial value 00h, no final inversion (R36). -/
def crc8 (bytes : List Byte) : Byte := bytes.foldl crcByte 0

/-- Byte `i` of a word, 0 the lowest. -/
def byteOf {w : Nat} (x : BitVec w) (i : Nat) : Byte := x.extractLsb' (8 * i) 8

/-- Highest byte first. -/
def be16 (x : BitVec 16) : List Byte := [byteOf x 1, byteOf x 0]
/-- Highest byte first. -/
def be24 (x : BitVec 24) : List Byte := [byteOf x 2, byteOf x 1, byteOf x 0]
/-- Highest byte first. -/
def be32 (x : BitVec 32) : List Byte := [byteOf x 3, byteOf x 2, byteOf x 1, byteOf x 0]

/-- The word of two bytes, highest first. -/
def of16 (a b : Byte) : BitVec 16 := a ++ b
/-- The word of three bytes, highest first. -/
def of24 (a b c : Byte) : BitVec 24 := a ++ (b ++ c : BitVec 16)
/-- The word of four bytes, highest first. -/
def of32 (a b c d : Byte) : BitVec 32 := (a ++ b : BitVec 16) ++ (c ++ d : BitVec 16)

/-- A byte from its bits, bit 0 first. -/
def byteOfBits (b0 b1 b2 b3 b4 b5 b6 b7 : Bool) : Byte :=
  BitVec.ofBool b7 ++ (BitVec.ofBool b6 ++ (BitVec.ofBool b5 ++ (BitVec.ofBool b4 ++ (BitVec.ofBool b3 ++
    (BitVec.ofBool b2 ++ (BitVec.ofBool b1 ++ BitVec.ofBool b0 : BitVec 2) : BitVec 3) : BitVec 4) : BitVec 5) : BitVec 6) : BitVec 7)

/-- Bits sent highest first, taken as a number (R36: "highest bit first"). -/
def bitsToNat (bits : List Bool) : Nat := bits.foldl (fun n b => 2 * n + b.toNat) 0

/-- The bits of a word, highest first. -/
def bitsOf {w : Nat} (x : BitVec w) : List Bool := (List.range w).map (fun i => x.getLsbD (w - 1 - i))

/-- The levels of one character on the line, in order: start bit low, eight data bits least significant first, the lead
flag, stop bit high (R92, Table 6-1). -/
def characterLevels (c : Byte × Bool) : List Bool :=
  [false] ++ (List.range 8).map (fun i => c.1.getLsbD i) ++ [c.2, true]

/-- What the receiver makes of a falling edge (R93). -/
inductive EdgeHeard where
  /-- The line is high in the middle of bit time 0: no character has begun. -/
  | glitch
  /-- The stop bit samples high. -/
  | character (byte : Byte) (lead : Bool)
  /-- The stop bit samples low: a break or a framing error, by how long the line stays low. -/
  | noStopBit
  deriving DecidableEq, Repr

/-- The levels sampled at the middles of bit times 0 to 10 after a falling edge, taken as R93 gives: the data bits least
significant first from bit times 1 to 8, the lead flag from bit time 9, the stop bit from bit time 10. -/
def edgeHeard (levels : Nat → Bool) : EdgeHeard :=
  if levels 0 then .glitch
  else if levels 10 then
    .character (byteOfBits (levels 1) (levels 2) (levels 3) (levels 4) (levels 5) (levels 6) (levels 7) (levels 8)) (levels 9)
  else .noStopBit

end Sys2Proof.Machine
end

