-- ==== Sys2Proof/Machine/Notices.lean ====
section
/-! DEFINITION. Notices as bytes: codes, lengths, bodies and the values accepted (R104, R107, R108, Table 6-6), and the
priority of the kinds (R110, Table 6-8). -/

namespace Sys2Proof.Machine

/-! ### Codes -/

/-- Kind codes of VERDICT, SETTLEMENT and JOURNAL bodies (R108). -/
def Kind.code : Kind → Byte
  | .pass => 1
  | .alarm => 2
  | .turnback => 3
  | .carriedIn => 4
  | .repeated => 5

/-- The kind of a code, accepted in 1..5 (Table 6-6). -/
def Kind.ofCode (b : Byte) : Option Kind :=
  if b = 1 then some .pass
  else if b = 2 then some .alarm
  else if b = 3 then some .turnback
  else if b = 4 then some .carriedIn
  else if b = 5 then some .repeated
  else none

/-- Class codes: 0 NONE, 1 UNISSUED, 2 WATCHED (R108). -/
def AlarmClass.code : AlarmClass → Byte
  | .noAlarm => 0
  | .unissued => 1
  | .watched => 2

/-- The class of a code, accepted in 0..2 (Table 6-6). -/
def AlarmClass.ofCode (b : Byte) : Option AlarmClass :=
  if b = 0 then some .noAlarm
  else if b = 1 then some .unissued
  else if b = 2 then some .watched
  else none

/-- Change codes of ALARM (Table 6-6). -/
def LatchChange.code : LatchChange → Byte
  | .raised => 1
  | .classRaised => 2
  | .acknowledged => 3
  | .cleared => 4

/-- The change of a code, accepted in 1..4 (Table 6-6). -/
def LatchChange.ofCode (b : Byte) : Option LatchChange :=
  if b = 1 then some .raised
  else if b = 2 then some .classRaised
  else if b = 3 then some .acknowledged
  else if b = 4 then some .cleared
  else none

/-- A byte that is 0 or 1. -/
def flagByte (b : Bool) : Byte := if b then 1 else 0

/-- Accepted values 0 and 1 (Table 6-6). -/
def ofFlagByte (b : Byte) : Option Bool :=
  if b = 0 then some false else if b = 1 then some true else none

/-- A frame stamp in a body: the number in two bytes and the index in one (R108). -/
def stampBytes (s : Stamp) : List Byte := be16 s.superFrame ++ [BitVec.ofNat 8 s.index]

/-- The stamp of three bytes; the index must lie in 0..24 (R108). -/
def stampOf (a b i : Byte) : Option Stamp :=
  if i.toNat < 25 then some ⟨of16 a b, i.toNat⟩ else none

/-- Lanes accepted are 1..8 (Table 6-6). -/
def laneAccepted (b : Byte) : Bool := 1 ≤ b.toNat && b.toNat ≤ 8

/-- The part-and-final byte: part number in the low four bits, the final mark in the high bit (R108). -/
def partByte (part : BitVec 4) (final : Bool) : Byte := BitVec.ofBool final ++ (0#3 ++ part : BitVec 7)

/-- The kind code of a notice, the high nibble of its lead (Table 6-6). -/
def Notice.code : Notice → Nat
  | .cadence .. => 1
  | .status .. => 2
  | .call .. => 3
  | .evidence .. => 4
  | .verdict .. => 5
  | .settlement .. => 6
  | .alarm .. => 7
  | .ack .. => 8
  | .journalCall .. => 9
  | .journal .. => 10

/-! ### Bodies -/

/-- The first flags byte of STATUS (Table 6-6). -/
def StatusFlags.firstByte (f : StatusFlags) : Byte :=
  byteOfBits f.westFault f.eastFault f.innerStuck f.outerStuck f.laneBusy f.service f.defaulted f.clash

/-- The second flags byte of STATUS (Table 6-6); the unnamed bits are sent as 0 (R108). -/
def StatusFlags.secondByte (f : StatusFlags) : Byte :=
  byteOfBits f.watchedTag f.fieldRunning false false false false false false

/-- The flags of two bytes; the unnamed bits are not examined (R108; notes/assumptions/24.md). -/
def StatusFlags.ofBytes (a b : Byte) : StatusFlags :=
  ⟨a.getLsbD 0, a.getLsbD 1, a.getLsbD 2, a.getLsbD 3, a.getLsbD 4, a.getLsbD 5, a.getLsbD 6, a.getLsbD 7,
    b.getLsbD 0, b.getLsbD 1⟩

/-- The latch byte of STATUS: bits 0..1 class, bit 7 acknowledged (Table 6-6). -/
def latchByte (c : AlarmClass) (acknowledged : Bool) : Byte :=
  BitVec.ofBool acknowledged ++ (0#5 ++ c.code.extractLsb' 0 2 : BitVec 7)

/-- The class and the acknowledged bit of a latch byte. -/
def ofLatchByte (b : Byte) : Option (AlarmClass × Bool) :=
  (AlarmClass.ofCode (0#6 ++ b.extractLsb' 0 2)).map (fun c => (c, b.getLsbD 7))

/-- One EVIDENCE entry, 13 bytes (Table 6-6): status code 6h UNISSUED or 9h ISSUED, bit 4 watched. -/
def EvidenceEntry.bytes (e : EvidenceEntry) : List Byte :=
  be32 e.serial ++ [(0#3 ++ (BitVec.ofBool e.watched ++ (if e.unissued then 6#4 else 9#4) : BitVec 5))] ++
    be24 e.west ++ be24 e.east ++ be16 e.reads

/-- One VERDICT entry, 6 bytes (Table 6-6). -/
def VerdictEntry.bytes (e : VerdictEntry) : List Byte := be32 e.serial ++ [e.share, e.kind.code]

/-- One SETTLEMENT entry, 5 bytes (Table 6-6). -/
def SettledEntry.bytes (e : SettledEntry) : List Byte := be32 e.serial ++ [e.kind.code]

/-- The fields of JOURNAL after present (Table 6-6): all 0 when there is no entry (R174). -/
def journalBytes : Option JournalBody → List Byte
  | none => 0 :: List.replicate 11 0
  | some e =>
    1 :: (be32 e.serial ++ [e.lane, e.kind.code, e.cls.code] ++ stampBytes e.stamp ++ [flagByte e.acknowledged])

/-- The body of a notice (Table 6-6). -/
def Notice.body : Notice → List Byte
  | .cadence sf d deferred selfLed =>
    be16 sf ++ [d, byteOfBits deferred selfLed false false false false false false]
  | .status sf f c a => be16 sf ++ [f.firstByte, f.secondByte, latchByte c a]
  | .call id lane a b => [id, lane] ++ stampBytes a ++ stampBytes b
  | .evidence id part final es => [id, partByte part final] ++ es.flatMap EvidenceEntry.bytes
  | .verdict id lane part final es => [id, lane, partByte part final] ++ es.flatMap VerdictEntry.bytes
  | .settlement id lane part final es => [id, lane, partByte part final] ++ es.flatMap SettledEntry.bytes
  | .alarm lane c ch a => [lane, c.code, ch.code, flagByte a]
  | .ack lane => [lane]
  | .journalCall target index => [target, index]
  | .journal index e => index :: journalBytes e

/-- The lead byte: kind in the high nibble, sender in the low nibble (R107). -/
def leadByte (code sender : Nat) : Byte := BitVec.ofNat 4 code ++ BitVec.ofNat 4 sender

/-- The bytes of a framed notice: lead, length, body, check (R107). -/
def Notice.frame (sender : Nat) (n : Notice) : List Byte :=
  let head := leadByte n.code sender :: BitVec.ofNat 8 n.body.length :: n.body
  head ++ [crc8 head]

/-- The characters of a framed notice: lead flag 1 on the first, 0 on every other (R92, R107). -/
def Notice.characters (sender : Nat) (n : Notice) : List (Byte × Bool) :=
  match n.frame sender with
  | [] => []
  | b :: bs => (b, true) :: bs.map (fun x => (x, false))

/-! ### Reading bodies -/

/-- The entries of an EVIDENCE body: status code 6h or 9h; the other bits of that byte but the watched bit are not examined. -/
def evidenceEntries : List Byte → Option (List EvidenceEntry)
  | [] => some []
  | a :: b :: c :: d :: f :: w2 :: w1 :: w0 :: e2 :: e1 :: e0 :: r1 :: r0 :: rest =>
    let code : BitVec 4 := f.extractLsb' 0 4
    if code = 6 ∨ code = 9 then
      (evidenceEntries rest).map
        (⟨of32 a b c d, code == 6, f.getLsbD 4, of24 w2 w1 w0, of24 e2 e1 e0, of16 r1 r0⟩ :: ·)
    else none
  | _ => none

/-- The entries of a VERDICT body: kind 1..5. -/
def verdictEntries : List Byte → Option (List VerdictEntry)
  | [] => some []
  | a :: b :: c :: d :: share :: k :: rest =>
    match Kind.ofCode k with
    | some kind => (verdictEntries rest).map (⟨of32 a b c d, share, kind⟩ :: ·)
    | none => none
  | _ => none

/-- The entries of a SETTLEMENT body: kind 1..5. -/
def settledEntries : List Byte → Option (List SettledEntry)
  | [] => some []
  | a :: b :: c :: d :: k :: rest =>
    match Kind.ofCode k with
    | some kind => (settledEntries rest).map (⟨of32 a b c d, kind⟩ :: ·)
    | none => none
  | _ => none

/-- The entry of a JOURNAL body: kind ALARM or REPEAT, class 1..2, lane 1..8, acknowledged 0 or 1 (Table 6-6). -/
def journalEntryOf : List Byte → Option JournalBody
  | [a, b, c, d, lane, k, cl, s1, s0, si, ackn] => do
    let kind ← Kind.ofCode k
    let cls ← AlarmClass.ofCode cl
    let stamp ← stampOf s1 s0 si
    let acknowledged ← ofFlagByte ackn
    if laneAccepted lane && (kind == .alarm || kind == .repeated) && cls != .noAlarm then
      some ⟨of32 a b c d, lane, kind, cls, stamp, acknowledged⟩
    else none
  | _ => none

/-- A JOURNAL body (Table 6-6): "when present is 0 the fields after it are ... not examined". -/
def journalOf : List Byte → Option Notice
  | index :: present :: rest =>
    if index.toNat ≤ 31 && rest.length == 11 then
      if present = 0 then some (.journal index none)
      else if present = 1 then (journalEntryOf rest).map (fun e => .journal index (some e))
      else none
    else none
  | _ => none

/-- The notice of a body, by kind: none when the length or a field holds a value that Table 6-6 does not accept, or the kind
is not one of 1 to 10 (R104). -/
def readBody (code : Nat) (body : List Byte) : Option Notice :=
  match code, body with
  | 1, [s1, s0, d, f] => some (.cadence (of16 s1 s0) d (f.getLsbD 0) (f.getLsbD 1))
  | 2, [s1, s0, f0, f1, l] =>
    (ofLatchByte l).map (fun (c, a) => .status (of16 s1 s0) (StatusFlags.ofBytes f0 f1) c a)
  | 3, [id, lane, a1, a0, ai, b1, b0, bi] => do
    let a ← stampOf a1 a0 ai
    let b ← stampOf b1 b0 bi
    if laneAccepted lane then some (.call id lane a b) else none
  | 4, id :: p :: rest =>
    if rest.length ≤ 4 * 13 then
      (evidenceEntries rest).map (fun es => .evidence id (p.extractLsb' 0 4) (p.getLsbD 7) es)
    else none
  | 5, id :: lane :: p :: rest =>
    if laneAccepted lane && rest.length ≤ 9 * 6 then
      (verdictEntries rest).map (fun es => .verdict id lane (p.extractLsb' 0 4) (p.getLsbD 7) es)
    else none
  | 6, id :: lane :: p :: rest =>
    if laneAccepted lane && rest.length ≤ 11 * 5 then
      (settledEntries rest).map (fun es => .settlement id lane (p.extractLsb' 0 4) (p.getLsbD 7) es)
    else none
  | 7, [lane, c, ch, a] => do
    let cls ← AlarmClass.ofCode c
    let change ← LatchChange.ofCode ch
    let acknowledged ← ofFlagByte a
    if laneAccepted lane then some (.alarm lane cls change acknowledged) else none
  | 8, [lane] => if laneAccepted lane then some (.ack lane) else none
  | 9, [target, index] =>
    if 1 ≤ target.toNat && target.toNat ≤ 9 && (index.toNat ≤ 31 || index.toNat == 255) then
      some (.journalCall target index)
    else none
  | 10, body => journalOf body
  | _, _ => none

/-- Whether a kind in use allows a body of this length (Table 6-6); any length to 60 for a kind not in use (R103). -/
def lengthAllowed (code len : Nat) : Bool :=
  match code with
  | 1 => len == 4
  | 2 => len == 5
  | 3 => len == 8
  | 4 => 2 ≤ len && (len - 2) % 13 == 0 && len ≤ 2 + 4 * 13
  | 5 => 3 ≤ len && (len - 3) % 6 == 0 && len ≤ 3 + 9 * 6
  | 6 => 3 ≤ len && (len - 3) % 5 == 0 && len ≤ 3 + 11 * 5
  | 7 => len == 4
  | 8 => len == 1
  | 9 => len == 2
  | 10 => len == 13
  | _ => len ≤ 60

/-! ### Assembly -/

/-- The kind of a lead byte: its high nibble (R102). -/
def leadKind (b : Byte) : Nat := (b.extractLsb' 4 4).toNat

/-- The sender's position of a lead byte: its low nibble (R102). -/
def leadSender (b : Byte) : Nat := (b.extractLsb' 0 4).toNat

/-- A length character that is discarded at once (R103): greater than 60, or not allowed for a kind in use. -/
def badLength : List Byte → Bool
  | lead :: len :: _ => 60 < len.toNat || !lengthAllowed (leadKind lead) len.toNat
  | _ => false

/-- A complete assembly: lead, length, body and check taken, with an allowed length (R103). -/
def assemblyComplete : List Byte → Bool
  | lead :: len :: rest => !badLength (lead :: len :: rest) && rest.length == len.toNat + 1
  | _ => false

/-- The sender and the notice of a complete and valid assembly (R104): the check over lead, length and body holds, the
sender is 0 to 9, and the kind and the fields are accepted. -/
def assemblyNotice (bytes : List Byte) : Option (Nat × Notice) :=
  match bytes with
  | lead :: len :: rest =>
    let body := rest.take len.toNat
    if assemblyComplete bytes && rest.drop len.toNat == [crc8 (lead :: len :: body)] && leadSender lead ≤ 9 then
      (readBody (leadKind lead) body).map (fun n => (leadSender lead, n))
    else none
  | _ => none

/-- The priority of a kind, 1 the highest (Table 6-8). A pedestal sends no JOURNAL CALL, and the table gives it none
(notes/assumptions/32.md). -/
def Notice.priority : Notice → Nat
  | .cadence .. => 1
  | .verdict .. => 2
  | .settlement .. => 3
  | .evidence .. => 4
  | .call .. => 5
  | .alarm .. => 6
  | .ack .. => 7
  | .journal .. => 8
  | .status .. => 9
  | .journalCall .. => 10

/-- A notice whose fields fit its bytes and are accepted by Table 6-6. -/
def Notice.wf : Notice → Bool
  | .cadence .. => true
  | .status .. => true
  | .call _ lane a b => laneAccepted lane && a.index < 25 && b.index < 25
  | .evidence _ _ _ es => es.length ≤ 4
  | .verdict _ lane _ _ es => laneAccepted lane && es.length ≤ 9
  | .settlement _ lane _ _ es => laneAccepted lane && es.length ≤ 11
  | .alarm lane .. => laneAccepted lane
  | .ack lane => laneAccepted lane
  | .journalCall target index => 1 ≤ target.toNat && target.toNat ≤ 9 && (index.toNat ≤ 31 || index.toNat == 255)
  | .journal index none => index.toNat ≤ 31
  | .journal index (some e) =>
    index.toNat ≤ 31 && laneAccepted e.lane && (e.kind == .alarm || e.kind == .repeated) && e.cls != .noAlarm &&
      e.stamp.index < 25

end Sys2Proof.Machine
end

