-- ==== Sys2Proof/Machine/Queue.lean ====
section
/-! DEFINITION. The outgoing queue (R109 to R112): offers with the full-queue rule, withdrawal, the choice of the next notice,
and the idle gap (R97). -/

namespace Sys2Proof.Machine

/-- A notice as offered: no failed attempt, not in transmission (R98). -/
def Queued.fresh (n : Notice) : Queued := ⟨n, 0, false, false⟩

/-- The place of the notice to drop (R111): of lowest priority, and the newest of that priority, among those not in
transmission. The list is given from place `i` on; the answer holds the place and the priority number. -/
def dropPlace : List Queued → Nat → Option (Nat × Nat)
  | [], _ => none
  | q :: qs, i =>
    match dropPlace qs (i + 1) with
    | none => if q.inTransmission then none else some (i, q.notice.priority)
    | some (j, p) => if !q.inTransmission && p < q.notice.priority then some (i, q.notice.priority) else some (j, p)

/-- An offer to the queue: the queue after it, and the notice dropped, if any (R111). -/
def offerTo (queue : List Queued) (q : Queued) : List Queued × Option Notice :=
  if queue.length < maxQueue then (queue ++ [q], none)
  else
    match dropPlace (queue ++ [q]) 0 with
    | none => (queue, some q.notice)
    | some (i, _) => ((queue ++ [q]).eraseIdx i, ((queue ++ [q])[i]?).map Queued.notice)

/-- The row line after an offer; the drop report of R111 waits in `dropped` until the offering command takes it. -/
def RowLine.offer (l : RowLine) (q : Queued) : RowLine :=
  let (queue, d) := offerTo l.queue q
  { l with queue := queue, dropped := l.dropped ++ d.toList }

/-- A block offers a notice (R109). While the transmitter is OFF no block offers one (R109; notes/assumptions/26.md). -/
def State.offer (s : State) (n : Notice) : State :=
  if s.line.tx = .off then s else s.withLine (s.line.offer (.fresh n))

/-- Several notices offered at one moment, in part order (R109). -/
def State.offerAll (s : State) (ns : List Notice) : State := ns.foldl State.offer s

/-- Withdrawal of the notices that `p` picks (R109): removed with no report, but one in transmission is left to complete,
and is removed at its first collision. -/
def withdrawFrom (p : Notice → Bool) (queue : List Queued) : List Queued :=
  queue.filterMap (fun q =>
    if p q.notice then (if q.inTransmission then some { q with withdrawn := true } else none) else some q)

/-- A block withdraws the notices that `p` picks (R109). -/
def State.withdraw (s : State) (p : Notice → Bool) : State :=
  s.withLine { s.line with queue := withdrawFrom p s.line.queue }

/-- The place of the notice to send: of highest priority, and the oldest of that priority (R110). A CADENCE is never chosen in
this way. -/
def sendPlace : List Queued → Nat → Option (Nat × Nat)
  | [], _ => none
  | q :: qs, i =>
    let here : Option (Nat × Nat) := if q.notice.priority = 1 then none else some (i, q.notice.priority)
    match here, sendPlace qs (i + 1) with
    | none, r => r
    | some h, none => some h
    | some h, some (j, p) => if p < h.2 then some (j, p) else some h

/-- The part's idle gap in bit times: 12 + 2p, and 12 + 13p under a collision back-off (R97, R98). -/
def State.idleGap (s : State) : Nat := if s.line.backoff then 12 + 13 * s.position else 12 + 2 * s.position

/-- The entry in transmission, if any. -/
def inTransmission (queue : List Queued) : Option Queued := queue.find? Queued.inTransmission

/-- The queue without the entry in transmission. -/
def withoutTransmission (queue : List Queued) : List Queued := queue.filter (fun q => !q.inTransmission)

/-- A notice that the adjudications of these call ids have offered: a CALL or a VERDICT part (R149). -/
def ofCalls (ids : List Byte) : Notice → Bool
  | .call id _ _ _ => ids.contains id
  | .verdict id _ _ _ _ => ids.contains id
  | _ => false

/-- The responder's EVIDENCE notices (R132). -/
def isEvidence : Notice → Bool
  | .evidence .. => true
  | _ => false

end Sys2Proof.Machine
end

