-- ==== Sys2Proof/Machine/AlarmUnit.lean ====
section
/-! DEFINITION. The lane latch (R159 to R166), acknowledges (R162, R167), the alarm journal (R173, R174) and the carried-in
list (R151 to R155). -/

namespace Sys2Proof.Machine

/-! ### Carried-in list -/

/-- "the entry with the least remaining grace is removed first ...; among several entries with the least remaining grace, the
one with the lowest serial" (R154). -/
def leastGrace (a b : CarriedEntry) : Bool :=
  a.grace < b.grace || (a.grace == b.grace && a.serial.toNat < b.serial.toNat)

/-- A CARRIED_IN entry applied with the given grace (R153, R154). -/
def carryIn (grace : Nat) (serial : Serial) (l : List CarriedEntry) : List CarriedEntry :=
  if l.any (fun e => e.serial == serial) then
    l.map (fun e => if e.serial = serial then { e with grace := grace } else e)
  else if l.length < maxCarried then l ++ [⟨serial, grace⟩]
  else
    match pickBest leastGrace l with
    | some out => l.filter (fun e => e.serial ≠ out.serial) ++ [⟨serial, grace⟩]
    | none => l ++ [⟨serial, grace⟩]

/-- One entry of a SETTLEMENT applied to the carried-in list (R153, R155): CARRIED_IN adds or restores, TURNBACK removes, the
others are passed over. -/
def applySettled (grace : Nat) (l : List CarriedEntry) (e : SettledEntry) : List CarriedEntry :=
  match e.kind with
  | .carriedIn => carryIn grace e.serial l
  | .turnback => l.filter (fun x => x.serial ≠ e.serial)
  | .pass => l
  | .alarm => l
  | .repeated => l

/-- The entries of a SETTLEMENT applied in the order they stand (R153). -/
def applySettlement (grace : Nat) (es : List SettledEntry) (l : List CarriedEntry) : List CarriedEntry :=
  es.foldl (applySettled grace) l

/-- The countdown of a frame start (R152). An entry that an earlier frame start brought to 0 is gone by then. -/
def countGraces (l : List CarriedEntry) : List CarriedEntry :=
  (l.filter (fun e => 0 < e.grace)).map (fun e => { e with grace := e.grace - 1 })

/-! ### Journal -/

/-- An entry appended; the oldest of 32 is removed first (R173). -/
def appendJournal (e : JournalEntry) (j : List JournalEntry) : List JournalEntry :=
  if j.length < maxJournal then j ++ [e] else j.drop 1 ++ [e]

/-- The aging of a frame start (R173). -/
def ageJournal (j : List JournalEntry) : List JournalEntry :=
  j.map (fun e => { e with age := saturate 65535 (e.age + 1) })

/-- Every entry marked acknowledged (R167). -/
def markJournal (j : List JournalEntry) : List JournalEntry := j.map (fun e => { e with acknowledged := true })

/-- An entry as a JOURNAL notice carries it; "the age is not sent" (R174). -/
def JournalEntry.body (e : JournalEntry) : JournalBody :=
  ⟨e.serial, BitVec.ofNat 8 e.lane, e.kind, e.cls, e.stamp, e.acknowledged⟩

/-- The index a JOURNAL CALL reads: its own in 0..31, the cursor for 255, the NEXT form (R174). -/
def AlarmUnit.indexRead (a : AlarmUnit) (index : Byte) : Nat := if index = 255 then a.cursor else index.toNat

/-- The cursor after a read of index `i` (R174). -/
def AlarmUnit.cursorAfter (a : AlarmUnit) (i : Nat) : Nat :=
  if i < a.journal.length then (if i = 31 then 0 else i + 1) else 0

/-- A JOURNAL CALL addressed to this part is answered: a JOURNAL notice is offered and the cursor moves (R174). -/
def State.answerJournal (s : State) (index : Byte) : State :=
  let i := s.alarm.indexRead index
  (s.withAlarm { s.alarm with cursor := s.alarm.cursorAfter i }).offer
    (.journal (BitVec.ofNat 8 i) ((s.alarm.journal[i]?).map JournalEntry.body))

/-! ### The latch -/

/-- A change of the latch with its ALARM notice for the own lane (R161). -/
def State.changeLatch (s : State) (l : Latch) (change : LatchChange) : State :=
  (s.withAlarm { s.alarm with latch := l }).offer (.alarm s.laneByte l.cls change l.acknowledged)

/-- The latch clears: class NONE, acknowledged no, clear pending no; CLEARED is offered (R161, R164, R165, R166). -/
def State.clearLatch (s : State) : State := s.changeLatch .reset .cleared

/-- The latch set or raised at a settlement with a standing ALARM (R160); `cls` is the settled class. -/
def State.raiseLatch (s : State) (cls : AlarmClass) : State :=
  match s.alarm.latch.cls, cls with
  | .noAlarm, _ => s.changeLatch ⟨cls, false, false⟩ .raised
  | .unissued, .watched => s.changeLatch ⟨.watched, false, false⟩ .classRaised
  | held, _ => s.changeLatch ⟨held, false, false⟩ .raised

/-- The effect of an acknowledge on a set latch (R164, R165). -/
def State.acknowledgeSet (s : State) : State :=
  match s.settings.latchMode with
  | .latched => s.clearLatch
  | .clearing =>
    if s.alarm.latch.acknowledged then s
    else if s.lane.passage = .clear then s.clearLatch
    else s.changeLatch ⟨s.alarm.latch.cls, true, true⟩ .acknowledged

/-- An acknowledge of the own lane (R162): nothing while the latch is NONE; else the journal is marked (R167) and the latch
takes it. -/
def State.acknowledge (s : State) : State :=
  if s.alarm.latch.cls = .noAlarm then s
  else (s.withAlarm { s.alarm with journal := markJournal s.alarm.journal }).acknowledgeSet

/-- The lane monitor's return-to-CLEAR report (R166): a latch in CLEARING mode whose clear is pending clears. -/
def State.returnToClear (s : State) : State :=
  if s.settings.latchMode = .clearing ∧ s.alarm.latch.clearPending = true then s.clearLatch else s

end Sys2Proof.Machine
end

