-- ==== Sys2Proof/Machine/Sightings.lean ====
section
/-! DEFINITION. The sighting table (chapter 4): applying a reply (R41, R49 to R55), the frame-start work (R57 to R63), VERDICT
resets (R64) and snapshots (R67, R68). The list of records is kept in order of serial, one record to a serial (R46). -/

namespace Sys2Proof.Machine

/-- A reply as the decoder hands it over (R40). -/
structure Reply where
  serial : Serial
  unissued : Bool
  watched : Bool
  stamp : Stamp
  west : Nat
  east : Nat
  deriving DecidableEq, Repr

/-- Whether a record is STRAY. -/
def Record.isStray (r : Record) : Bool :=
  match r.state with
  | .stray _ _ => true
  | _ => false

/-- A new record for a reply (R49); the same fields are taken by a STRAY record that is released, but for the watched flag
(R54). -/
def Reply.record (r : Reply) : Record where
  serial := r.serial
  unissued := r.unissued
  watched := r.watched
  state := .live
  firstStamp := r.stamp
  lastStamp := r.stamp
  westSum := r.west
  eastSum := r.east
  reads := 1
  lastWest := r.west
  lastEast := r.east

/-- A reply counted to a LIVE or FADING record (R51, R52, R55). -/
def Record.count (rec : Record) (r : Reply) : Record :=
  { rec with
    state := .live
    unissued := r.unissued
    watched := rec.watched || r.watched
    firstStamp := if rec.reads = 0 then r.stamp else rec.firstStamp
    lastStamp := r.stamp
    westSum := saturate maxSum (rec.westSum + r.west)
    eastSum := saturate maxSum (rec.eastSum + r.east)
    reads := saturate maxReads (rec.reads + 1)
    lastWest := r.west
    lastEast := r.east }

/-- The magnitude of a difference. -/
def distance (a b : Nat) : Nat := (a - b) + (b - a)

/-- A reply to a STRAY record with anchor `aw`, `ae` (R53, R54). -/
def Record.meetStray (rec : Record) (moveStep aw ae : Nat) (r : Reply) : Record :=
  if moveStep < distance r.west aw ∨ moveStep < distance r.east ae then
    { r.record with watched := rec.watched || r.watched }
  else
    { rec with lastStamp := r.stamp, lastWest := r.west, lastEast := r.east }

/-- A reply applied to the record of its serial (R51 to R54), after the once-per-frame test: "If a record for the serial
exists and its last stamp equals the reply's frame stamp, the reply is ignored entirely" (R41). -/
def Record.apply (rec : Record) (moveStep : Nat) (r : Reply) : Record :=
  if rec.lastStamp = r.stamp then rec
  else
    match rec.state with
    | .stray aw ae => rec.meetStray moveStep aw ae r
    | _ => rec.count r

/-- The age of a stamp against the current stamp `now` (R48). -/
def ageOf (now st : Stamp) : Int := stampDiff st now

/-- "The record with the earliest stamp is the one whose stamp has the greatest age. Between records of equal age, the table
picks the one with the lowest serial" (R48). -/
def earlier (stampOf : Record → Stamp) (now : Stamp) (a b : Record) : Bool :=
  ageOf now (stampOf b) < ageOf now (stampOf a) ||
    (ageOf now (stampOf a) == ageOf now (stampOf b) && a.serial.toNat < b.serial.toNat)

/-- The record of the table that is earliest by `stampOf`, among those `p` picks. -/
def earliest (p : Record → Bool) (stampOf : Record → Stamp) (now : Stamp) (table : List Record) : Option Record :=
  pickBest (earlier stampOf now) (table.filter p)

/-- The table without the record of a serial. -/
def freeSerial (serial : Serial) (table : List Record) : List Record := table.filter (fun r => r.serial ≠ serial)

/-- The record to free for a newcomer at a full table (R50): the FADING one with the earliest last stamp, else the STRAY one
with the earliest first stamp, else none. -/
def evictee (now : Stamp) (table : List Record) : Option Record :=
  match earliest (fun r => r.state == .fading) Record.lastStamp now table with
  | some r => some r
  | none => earliest Record.isStray Record.firstStamp now table

/-- A record put in its place by serial. -/
def insertRecord (rec : Record) (table : List Record) : List Record :=
  insertBy (fun a b => a.serial.toNat < b.serial.toNat) rec table

/-- The table after a reply (R41, R49 to R54). -/
def applyReply (moveStep : Nat) (r : Reply) (table : List Record) : List Record :=
  if table.any (fun rec => rec.serial == r.serial) then
    table.map (fun rec => if rec.serial = r.serial then rec.apply moveStep r else rec)
  else if table.length < maxRecords then insertRecord r.record table
  else
    match evictee r.stamp table with
    | some out => insertRecord r.record (freeSerial out.serial table)
    | none => table

/-! ### The table at a frame start (R56); `now` is the stamp of the frame that begins -/

/-- First stamps older than 65,535 frames are moved forward to that age (R57). -/
def limitFirstStamps (now : Stamp) (table : List Record) : List Record :=
  table.map (fun r => if 65535 < ageOf now r.firstStamp then { r with firstStamp := now.before 65535 } else r)

/-- A LIVE record whose last stamp is 25 or more frames old (R58). -/
def Record.fades (now : Stamp) (r : Record) : Bool := r.state == .live && 25 ≤ ageOf now r.lastStamp

/-- LIVE records become FADING (R58). -/
def fadeRecords (now : Stamp) (table : List Record) : List Record :=
  table.map (fun r => if r.fades now then { r with state := .fading } else r)

/-- The fading reports of a frame start, in order of serial (R58): the records that fade with reads above 0, as they stand
after the change. -/
def fadingReports (now : Stamp) (table : List Record) : List Record :=
  (table.filter (fun r => r.fades now && 0 < r.reads)).map (fun r => { r with state := .fading })

/-- A FADING record 100 or more frames old, or a STRAY one 25 or more, is freed (R59). -/
def Record.expires (now : Stamp) (r : Record) : Bool :=
  match r.state with
  | .live => false
  | .fading => 100 ≤ ageOf now r.lastStamp
  | .stray _ _ => 25 ≤ ageOf now r.lastStamp

/-- Records freed by aging (R59). -/
def freeRecords (now : Stamp) (table : List Record) : List Record := table.filter (fun r => !r.expires now)

/-- The values of a record marked STRAY (R63). -/
def Record.mark (r : Record) : Record :=
  { r with state := .stray r.lastWest r.lastEast, westSum := 0, eastSum := 0, reads := 0 }

/-- The number of STRAY records. -/
def strayCount (table : List Record) : Nat := (table.filter Record.isStray).length

/-- One record marked STRAY: with 16 STRAY records held, the one with the earliest first stamp is freed first (R63). -/
def markOne (now : Stamp) (serial : Serial) (table : List Record) : List Record :=
  let room :=
    if strayCount table < maxStrays then table
    else
      match earliest Record.isStray Record.firstStamp now table with
      | some out => freeSerial out.serial table
      | none => table
  room.map (fun r => if r.serial = serial then r.mark else r)

/-- A LIVE record whose first stamp is at least the stray age old (R60). -/
def Record.marks (strayAge : Nat) (now : Stamp) (r : Record) : Bool :=
  r.state == .live && (strayAge : Int) ≤ ageOf now r.firstStamp

/-- Strays marked one at a time, in order of earliest first stamp (R60), when the lane conditions hold. -/
def markStrays (strayAge : Nat) (now : Stamp) (table : List Record) : List Record :=
  (sortBy (earlier Record.firstStamp now) (table.filter (fun r => r.marks strayAge now))).foldl
    (fun t r => markOne now r.serial t) table

/-! ### Resets on VERDICT and snapshots -/

/-- A VERDICT reset of the named serials (R64); `first` is the first stamp it sets. -/
def resetRecords (first : Stamp) (serials : List Serial) (table : List Record) : List Record :=
  table.map (fun r =>
    if serials.contains r.serial then { r with westSum := 0, eastSum := 0, reads := 0, firstStamp := first } else r)

/-- Whether a record is evidence for the window (R67). -/
def Record.inWindow (a b : Stamp) (r : Record) : Bool :=
  !r.isStray && 0 < r.reads && 0 ≤ stampDiff r.firstStamp b && 0 ≤ stampDiff a r.lastStamp

/-- A snapshot for the window from `a` to `b`: the records taken, in order of serial (R67, R68). -/
def snapshot (a b : Stamp) (table : List Record) : List Record := table.filter (fun r => r.inWindow a b)

/-- The `n` records with the largest `key`, the lower serial between equals, in order of serial (R127, R131). -/
def keepLargest (key : Record → Nat) (n : Nat) (l : List Record) : List Record :=
  if l.length ≤ n then l
  else
    let best := (sortBy (fun a b => key b < key a || (key a == key b && a.serial.toNat < b.serial.toNat)) l).take n
    sortBy (fun a b => a.serial.toNat < b.serial.toNat) best

/-- The watched-tag-in-field indication: a watched record that is LIVE or FADING (R44). -/
def watchedInField (table : List Record) : Bool := table.any (fun r => r.watched && !r.isStray)

end Sys2Proof.Machine
end

