-- ==== Sys2Proof/Machine/Adjudication.lean ====
section
/-! DEFINITION. The adjudicator (chapter 8): opening (R126 to R129), collecting (R130 to R136), weighing (R137 to R142),
claims (R143, R144), holding and contests (R145, R146), settlement (R148), abandonment (R149) and the hold-off (R157). -/

namespace Sys2Proof.Machine

/-! ### Candidates and weighing -/

/-- Toward evidence W: own east sum plus partner west sum (R138); also the toward-sum of R127. -/
def Candidate.toward (c : Candidate) : Nat := c.ownEast + c.partnerWest

/-- Away evidence O: own west sum plus partner east sum (R138). -/
def Candidate.away (c : Candidate) : Nat := c.ownWest + c.partnerEast

/-- The share: `floor(255 × W / (W + O))`, 0 when both are 0 (R138). -/
def shareOf (w o : Nat) : Nat := if w + o = 0 then 0 else 255 * w / (w + o)

/-- The candidate of a snapshot entry (R127). -/
def Record.candidate (r : Record) : Candidate where
  serial := r.serial
  unissued := r.unissued || r.watched
  watched := r.watched
  ownWest := r.westSum
  ownEast := r.eastSum
  partnerWest := 0
  partnerEast := 0
  reads := r.reads
  share := none
  outcome := none
  yielded := false

/-- The kind of an attributed candidate, none for NOT ATTRIBUTED or not weighed. -/
def Candidate.kind (c : Candidate) : Option Kind :=
  match c.outcome with
  | some (.attributed k) => some k
  | _ => none

/-- Attributed and still standing (R148). -/
def Candidate.stands (c : Candidate) : Bool := c.kind.isSome && !c.yielded

/-- What a weighing reads at its moment (section 8.5). -/
structure Scales where
  settings : Settings
  ownFaulted : Bool
  partnerFaulted : Bool
  claims : List Claim
  carried : List CarriedEntry
  journal : List JournalEntry
  others : List Adjudication

/-- The threshold in force (R137). -/
def Scales.threshold (x : Scales) (evidence : PartnerEvidence) : Threshold :=
  if x.ownFaulted || x.partnerFaulted then .solo else if evidence = .final then .normal else .solo

/-- The value of a threshold (R137). -/
def Scales.thresholdValue (x : Scales) : Threshold → Nat
  | .normal => x.settings.normalThreshold
  | .solo => x.settings.soloThreshold

/-- A claim that keeps a serial from being attributed (R139): under another lane, or under this lane with another call id. -/
def excludes (lane : Nat) (callId : Byte) (serial : Serial) (c : Claim) : Bool :=
  c.serial == serial && (c.lane != lane || c.callId != callId)

/-- Whether a candidate is attributed to the lane (R139); never when both toward faces are faulted (R137). -/
def Scales.attributes (x : Scales) (a : Adjudication) (c : Candidate) : Bool :=
  !(x.ownFaulted && x.partnerFaulted) &&
    x.thresholdValue (x.threshold a.evidence) ≤ shareOf c.toward c.away &&
    x.settings.evidenceFloor ≤ c.toward && 2 ≤ c.reads &&
    !x.claims.any (excludes a.lane a.callId c.serial)

/-- A candidate of kind ALARM or REPEAT that stands (R157). -/
def Candidate.alarms (c : Candidate) : Bool :=
  !c.yielded && (c.kind == some .alarm || c.kind == some .repeated)

/-- Whether a serial is held off (R157): a journal entry younger than the hold-off, or another HOLDING adjudication that holds
it as a standing ALARM or REPEAT. -/
def Scales.heldOff (x : Scales) (a : Adjudication) (serial : Serial) : Bool :=
  x.journal.any (fun e => e.serial == serial && e.age < x.settings.holdOff) ||
    x.others.any (fun b => b.callId != a.callId && b.state == .holding &&
      b.candidates.any (fun c => c.serial == serial && c.alarms))

/-- The kind of an attributed candidate (R140). -/
def Scales.kindOf (x : Scales) (a : Adjudication) (c : Candidate) : Kind :=
  if !c.unissued then .pass
  else if a.direction = .inbound then .carriedIn
  else if x.carried.any (fun e => e.serial == c.serial) then .turnback
  else if x.heldOff a c.serial then .repeated
  else .alarm

/-- A candidate weighed (R137 to R140). -/
def Scales.weighOne (x : Scales) (a : Adjudication) (c : Candidate) : Candidate :=
  { c with
    share := some (shareOf c.toward c.away)
    outcome := some (if x.attributes a c then .attributed (x.kindOf a c) else .notAttributed) }

/-- An adjudication weighed: HOLDING, its hold not started (R137, R142). -/
def Scales.weigh (x : Scales) (a : Adjudication) : Adjudication :=
  { a with
    threshold := some (x.threshold a.evidence)
    candidates := a.candidates.map (x.weighOne a)
    state := .holding
    deadline := none
    hold := none }

/-- The attributed candidates, in order of serial (R141). -/
def Adjudication.attributed (a : Adjudication) : List Candidate :=
  sortBy (fun x y => x.serial.toNat < y.serial.toNat) (a.candidates.filter (fun c => c.kind.isSome))

/-- The attributed candidates that stand, in order of serial (R148). -/
def Adjudication.standing (a : Adjudication) : List Candidate := a.attributed.filter Candidate.stands

/-- The VERDICT notices of a weighed adjudication: nine entries to a part (R141). -/
def Adjudication.verdicts (a : Adjudication) : List Notice :=
  (numberParts (partsOf 9 (a.attributed.map (fun c =>
    (⟨c.serial, BitVec.ofNat 8 (c.share.getD 0), c.kind.getD .pass⟩ : VerdictEntry))))).map
    (fun (i, final, es) => .verdict a.callId (BitVec.ofNat 8 a.lane) i final es)

/-- The entries of the SETTLEMENT (R148). -/
def Adjudication.settled (a : Adjudication) : List SettledEntry :=
  a.standing.map (fun c => ⟨c.serial, c.kind.getD .pass⟩)

/-- The SETTLEMENT notices: eleven entries to a part (R148). -/
def Adjudication.settlements (a : Adjudication) : List Notice :=
  (numberParts (partsOf 11 a.settled)).map
    (fun (i, final, es) => .settlement a.callId (BitVec.ofNat 8 a.lane) i final es)

/-! ### Claims -/

/-- "the claim with the least remaining frames is replaced; among several, the one with the lowest serial, and then the
lowest lane" (R143). -/
def replacedBefore (a b : Claim) : Bool :=
  a.remaining < b.remaining ||
    (a.remaining == b.remaining &&
      (a.serial.toNat < b.serial.toNat || (a.serial == b.serial && a.lane < b.lane)))

/-- Whether two claims have the same serial and lane. -/
def Claim.same (a b : Claim) : Bool := a.serial == b.serial && a.lane == b.lane

/-- A claim made (R143): refreshed when one of its serial and lane exists, else added, replacing one of 32. -/
def addClaim (c : Claim) (l : List Claim) : List Claim :=
  if l.any c.same then l.map (fun x => if c.same x then c else x)
  else if l.length < maxClaims then l ++ [c]
  else
    match pickBest replacedBefore l with
    | some out => l.filter (fun x => !out.same x) ++ [c]
    | none => l ++ [c]

/-- Several claims made, in order. -/
def addClaims (cs : List Claim) (l : List Claim) : List Claim := cs.foldl (fun l c => addClaim c l) l

/-- The countdown of a frame start (R144). A claim that an earlier frame start brought to 0 is gone by then. -/
def countClaims (l : List Claim) : List Claim :=
  (l.filter (fun c => 0 < c.remaining)).map (fun c => { c with remaining := c.remaining - 1 })

/-- The claims of the owner's own VERDICT (R142); `frames` is 10, or 9 when they are made before the countdown of the same
frame start (R144). -/
def Adjudication.claims (a : Adjudication) (frames : Nat) : List Claim :=
  a.attributed.map (fun c => ⟨c.serial, a.lane, c.share.getD 0, a.callId, frames⟩)

/-! ### Evidence -/

/-- An EVIDENCE entry merged into the candidate of its serial (R134). -/
def Candidate.merge (c : Candidate) (e : EvidenceEntry) : Candidate :=
  { c with
    partnerWest := e.west.toNat
    partnerEast := e.east.toNat
    reads := saturate maxReads (c.reads + e.reads.toNat)
    watched := c.watched || e.watched
    unissued := c.unissued || e.unissued || e.watched }

/-- The new candidate of an EVIDENCE entry (R134). -/
def EvidenceEntry.candidate (e : EvidenceEntry) : Candidate where
  serial := e.serial
  unissued := e.unissued || e.watched
  watched := e.watched
  ownWest := 0
  ownEast := 0
  partnerWest := e.west.toNat
  partnerEast := e.east.toNat
  reads := e.reads.toNat
  share := none
  outcome := none
  yielded := false

/-- The candidate to replace: the smallest toward-sum, the highest serial among several (R135). -/
def weaker (a b : Candidate) : Bool :=
  a.toward < b.toward || (a.toward == b.toward && b.serial.toNat < a.serial.toNat)

/-- One EVIDENCE entry merged into the candidates (R134, R135). -/
def mergeEntry (cs : List Candidate) (e : EvidenceEntry) : List Candidate :=
  if cs.any (fun c => c.serial == e.serial) then
    cs.map (fun c => if c.serial = e.serial then c.merge e else c)
  else if cs.length < maxCandidates then cs ++ [e.candidate]
  else
    match pickBest weaker cs with
    | some out =>
      if out.toward < e.candidate.toward then cs.filter (fun c => c.serial ≠ out.serial) ++ [e.candidate] else cs
    | none => cs

/-- The partner evidence after a part (R133). -/
def evidenceAfter (parts : List (BitVec 4)) (part : BitVec 4) (final : Bool) : PartnerEvidence :=
  if final && (List.range (part.toNat + 1)).all (fun i => parts.contains (BitVec.ofNat 4 i)) then .final
  else .incomplete

/-- A part merged into a COLLECTING adjudication (R133). -/
def Adjudication.mergePart (a : Adjudication) (part : BitVec 4) (final : Bool) (es : List EvidenceEntry) : Adjudication :=
  let parts := part :: a.parts
  { a with
    parts := parts
    candidates := es.foldl mergeEntry a.candidates
    evidence := evidenceAfter parts part final }

/-! ### Contests -/

/-- Whether a rival VERDICT entry makes a candidate yield (R146): a greater share, or equal shares and a lower lane. -/
def rivalWins (lane : Nat) (share : Nat) (rivalLane : Nat) (rivalShare : Nat) : Bool :=
  share < rivalShare || (share == rivalShare && rivalLane < lane)

/-- One entry of a rival VERDICT set against a candidate of this lane (R146). -/
def Candidate.contest (lane rivalLane : Nat) (c : Candidate) (e : VerdictEntry) : Candidate :=
  if c.serial = e.serial ∧ c.stands = true ∧ rivalWins lane (c.share.getD 0) rivalLane e.share.toNat = true then
    { c with yielded := true }
  else c

/-- A rival VERDICT notice compared with a HOLDING adjudication of another lane (R146). -/
def Adjudication.contest (a : Adjudication) (rivalLane : Nat) (es : List VerdictEntry) : Adjudication :=
  if a.state = .holding ∧ a.lane ≠ rivalLane then
    { a with candidates := a.candidates.map (fun c => es.foldl (Candidate.contest a.lane rivalLane) c) }
  else a

/-! ### The adjudicator's work on the state -/

/-- The adjudication list replaced. -/
def State.withList (s : State) (l : List Adjudication) : State := s.withAdj { s.adj with list := l }

/-- What a weighing reads now (R137, R139, R140, R157): the owner's east face, the partner's reported west face fault, the
claims list, the carried-in list, the journal and the other adjudications. At a frame start the ages of the journal have been
counted by then (notes/assumptions/37.md). -/
def State.scales (s : State) : Scales where
  settings := s.settings
  ownFaulted := s.sampler.east.faulted
  partnerFaulted := s.neighbours.east.westFault == some true
  claims := s.adj.claims
  carried := s.carried
  journal := s.alarm.journal
  others := s.adj.list

/-- The first stamp a VERDICT reset sets: the stamp of the frame after the one in progress (R64); of the frame now beginning
when the reset is taken before the table's work of the same frame start (R56). -/
def State.resetStamp (s : State) (ties : Ties) : Stamp := if ties.sightings then s.stamp else s.stamp.next

/-- The effects of a weighing that attributes candidates, but for the list (R141, R142, R65): the VERDICT is offered, the
claims are made, and the records of the named serials are reset. -/
def State.giveVerdict (s : State) (ties : Ties) (w : Adjudication) : State :=
  let s := s.offerAll w.verdicts
  let s := s.withAdj { s.adj with
    claims := addClaims (w.claims (if ties.claims then claimFrames - 1 else claimFrames)) s.adj.claims }
  s.withSightings (resetRecords (s.resetStamp ties) (w.attributed.map Candidate.serial) s.sightings)

/-- The grace an entry takes at the owner's settlement: the grace setting (R151), less the countdown of the same frame start
when the settlement is taken before it (R152). -/
def State.settledGrace (s : State) (ties : Ties) : Nat :=
  if ties.carriedIn then s.settings.grace - 1 else s.settings.grace

/-- The journal entry of a standing ALARM or REPEAT (R148, R158, R173): age 0, or 1 when it is appended before the aging of
the same frame start (R173). -/
def State.journalEntry (s : State) (ties : Ties) (a : Adjudication) (c : Candidate) : JournalEntry where
  serial := c.serial
  lane := a.lane
  kind := c.kind.getD .alarm
  cls := if c.watched then .watched else .unissued
  stamp := s.stamp
  age := if ties.journal then 1 else 0
  acknowledged := false

/-- The settled class, when at least one ALARM stands (R160). -/
def Adjudication.settledClass (a : Adjudication) : Option AlarmClass :=
  let alarms := a.standing.filter (fun c => c.kind == some .alarm)
  if alarms.isEmpty then none else if alarms.any Candidate.watched then some .watched else some .unissued

/-- The effects of a settlement (R148), but for the list: SETTLEMENT offered; the carried-in list, the journal and the latch
take it. -/
def State.settle (s : State) (ties : Ties) (a : Adjudication) : State :=
  let s := s.offerAll a.settlements
  let s := s.withCarried (applySettlement (s.settledGrace ties) a.settled s.carried)
  let s := s.withAlarm { s.alarm with
    journal := ((a.standing.filter Candidate.alarms).map (s.journalEntry ties a)).foldl
      (fun j e => appendJournal e j) s.alarm.journal }
  match a.settledClass with
  | some cls => s.raiseLatch cls
  | none => s

/-- An adjudication of the list replaced by another of its call id. -/
def replaceAdj (a : Adjudication) (l : List Adjudication) : List Adjudication :=
  l.map (fun b => if b.callId = a.callId then a else b)

/-- The list without a call id. -/
def removeAdj (id : Byte) (l : List Adjudication) : List Adjudication := l.filter (fun b => b.callId ≠ id)

/-- An adjudication of the list weighed (R136 to R142): with none attributed it leaves the list and ends; otherwise its
VERDICT is given and it becomes HOLDING. -/
def State.weighListed (s : State) (ties : Ties) (a : Adjudication) : State :=
  let w := s.scales.weigh a
  if w.attributed.isEmpty then s.withList (removeAdj a.callId s.adj.list)
  else (s.withList (replaceAdj w s.adj.list)).giveVerdict ties w

/-- An adjudication weighed at its opening enters the list as HOLDING; at a full list the oldest HOLDING one settles at once to
make room, or, with none HOLDING, the new one settles at once (R128, R129). -/
def State.enterWeighed (s : State) (ties : Ties) (w : Adjudication) : State :=
  if s.adj.list.length < maxAdjudications then s.withList (s.adj.list ++ [w])
  else
    match s.adj.list.find? (fun a => a.state == .holding) with
    | some old => (s.withList (removeAdj old.callId s.adj.list ++ [w])).settle ties old
    | none => s.settle ties w

/-- An adjudication weighed at its opening with partner evidence NONE (R128, R129). -/
def State.weighNew (s : State) (ties : Ties) (a : Adjudication) : State :=
  let w := s.scales.weigh a
  if w.attributed.isEmpty then s else (s.giveVerdict ties w).enterWeighed ties w

/-- The hold of the HOLDING adjudication of a call id starts at 3 when its final VERDICT part leaves the queue (R145). -/
def State.startHold (s : State) (id : Byte) : State :=
  s.withList (s.adj.list.map (fun a =>
    if a.callId = id ∧ a.state = .holding ∧ a.hold = none then { a with hold := some holdFrames } else a))

/-- The deadline of the COLLECTING adjudication of a call id starts at 5 at the sent report of its CALL (R130). -/
def State.startDeadline (s : State) (id : Byte) : State :=
  s.withList (s.adj.list.map (fun a =>
    if a.callId = id ∧ a.state = .collecting then { a with deadline := some deadlineFrames } else a))

/-- A drop report (R99, R111): for a CALL the adjudication is weighed at once with partner evidence NONE (R130), for a final VERDICT part
its hold starts (R145); the other kinds change nothing. A part of an older CALL that has been merged under a reused call id (R133) stays
in the candidates and in the parts received (notes/assumptions/41.md). -/
def State.dropReport (s : State) (ties : Ties) (n : Notice) : State :=
  match n with
  | .call id _ _ _ =>
    match s.adj.list.find? (fun a => a.callId == id && a.state == .collecting) with
    | some a => s.weighListed ties { a with evidence := .nothing }
    | none => s
  | .verdict id _ _ true _ => s.startHold id
  | _ => s

/-- The drop reports that wait are taken, in order, until none waits; a report may lead to further offers and drops
(notes/assumptions/22.md). -/
def State.takeReports (ties : Ties) : Nat → State → State
  | 0, s => s
  | fuel + 1, s =>
    match s.line.dropped with
    | [] => s
    | n :: rest => State.takeReports ties fuel ((s.withLine { s.line with dropped := rest }).dropReport ties n)

/-- More reports than one command can give: at most 16 notices of four settlements, 3 VERDICT parts for each of at most 5
weighings, and one answer of 6 parts are offered, and each offer drops at most one notice. -/
def reportFuel : Nat := 64

/-- The drop reports of the command's offers are taken. -/
def State.finishOffers (s : State) (ties : Ties) : State := s.takeReports ties reportFuel

/-- The partner is missing, or its west face is reported faulted: no CALL is sent (R128). -/
def State.noPartner (s : State) : Bool :=
  s.neighbours.east.presence != .present || s.neighbours.east.westFault == some true

/-- The new adjudication of a delivery (R125 to R127). -/
def State.newAdjudication (s : State) (trigger : Trigger) (d : Direction) (a b : Stamp) : Adjudication where
  callId := s.adj.nextCall
  lane := s.position
  trigger := trigger
  direction := d
  windowStart := a
  windowEnd := b
  state := .collecting
  evidence := .nothing
  parts := []
  threshold := none
  candidates := (keepLargest Record.eastSum maxCandidates (snapshot a b s.sightings)).map Record.candidate
  deadline := none
  hold := none

/-- A CALL is offered and the adjudication enters the list in COLLECTING (R128). -/
def State.callPartner (s : State) (a : Adjudication) : State :=
  (s.withList (s.adj.list ++ [a])).offer (.call a.callId (BitVec.ofNat 8 a.lane) a.windowStart a.windowEnd)

/-- An adjudication opens for a delivery with its window (R125 to R129), unless the clash condition holds (R122). -/
def State.openAdjudication (s : State) (ties : Ties) (trigger : Trigger) (d : Direction) (a b : Stamp) : State :=
  if s.neighbours.clash then s
  else
    let adj := s.newAdjudication trigger d a b
    let s := s.withAdj { s.adj with nextCall := s.adj.nextCall + 1 }
    (if s.noPartner || maxAdjudications ≤ s.adj.list.length then s.weighNew ties adj
      else s.callPartner adj).finishOffers ties

/-- A passage delivered (R126): its window begins 25 frames before its start. -/
def State.deliverPassage (s : State) (d : Direction) (a b : Stamp) : State :=
  s.openAdjudication .none .passage d (a.before 25) b

/-- Every adjudication abandoned with no notice; its notices in the queue are withdrawn (R149). -/
def State.abandonAll (s : State) : State :=
  (s.withdraw (ofCalls (s.adj.list.map Adjudication.callId))).withList []

/-- The responder's queued EVIDENCE is withdrawn (R132). -/
def State.withdrawEvidence (s : State) : State := s.withdraw isEvidence

/-- The answer to a CALL (R131, R132): the snapshot's entries, at most the 24 with the largest west sums, four to a part. -/
def evidenceAnswer (callId : Byte) (snap : List Record) : List Notice :=
  (numberParts (partsOf 4 ((keepLargest Record.westSum maxCandidates snap).map (fun r =>
    (⟨r.serial, r.unissued, r.watched, BitVec.ofNat 24 r.westSum, BitVec.ofNat 24 r.eastSum,
      BitVec.ofNat 16 r.reads⟩ : EvidenceEntry))))).map
    (fun (i, final, es) => .evidence callId i final es)

/-- The countdown of a frame start (R130, R145): started deadlines of COLLECTING and started holds of HOLDING ones. -/
def Adjudication.countDown (a : Adjudication) : Adjudication :=
  match a.state with
  | .collecting => { a with deadline := a.deadline.map (· - 1) }
  | .holding => { a with hold := a.hold.map (· - 1) }

end Sys2Proof.Machine
end

