-- ==== Sys2Proof/Machine/NeighbourTable.lean ====
section
/-! DEFINITION. The neighbour table (chapter 7): presence (R117, R118), the line-silent fault (R120) and the clash condition
(R121, R122). -/

namespace Sys2Proof.Machine

/-- A west record is kept at positions 2 and more (R116). -/
def State.keepsWest (s : State) : Bool := 2 ≤ s.position

/-- An east record is kept at positions 8 and less (R116). -/
def State.keepsEast (s : State) : Bool := s.position ≤ 8

/-- Whether a sender's position is that of the kept west record. -/
def State.fromWest (s : State) (sender : Nat) : Bool := s.keepsWest && sender + 1 == s.position

/-- Whether a sender's position is that of the kept east record. -/
def State.fromEast (s : State) (sender : Nat) : Bool := s.keepsEast && sender == s.position + 1

/-- A record that has heard a notice (R117). -/
def WestRecord.heard (r : WestRecord) : WestRecord := { r with presence := .present, silence := 0 }

/-- A record that has heard a notice (R117). -/
def EastRecord.heard (r : EastRecord) : EastRecord := { r with presence := .present, silence := 0 }

/-- Whatever its kind, a valid notice from another station makes its sender's record PRESENT (R117) and clears the line silence
(R120). -/
def State.hearStation (s : State) (sender : Nat) : State :=
  s.withNeighbours { s.neighbours with
    west := if s.fromWest sender then s.neighbours.west.heard else s.neighbours.west
    east := if s.fromEast sender then s.neighbours.east.heard else s.neighbours.east
    lineSilence := 0
    lineSilent := false }

/-- A clash trigger (R121): the clash count becomes 0; when the condition is newly set, every adjudication is abandoned (R122)
and the responder's EVIDENCE withdrawn (R132). -/
def State.clashTrigger (s : State) : State :=
  let s' := s.withNeighbours { s.neighbours with clash := true, clashCount := 0 }
  if s.neighbours.clash then s' else s'.abandonAll.withdrawEvidence

/-- A valid notice from another station, before its kind is looked at (R105, R106, R117, R120). -/
def State.hearSender (s : State) (sender : Nat) : State :=
  let s := s.hearStation sender
  if sender = s.position then s.clashTrigger else s

/-- Silence counted at a frame 0 start, for a kept record (R118). -/
def State.countSilence (s : State) : Neighbours :=
  let n := s.neighbours
  { n with
    west := if s.keepsWest then { n.west with silence := saturate 255 (n.west.silence + 1) } else n.west
    east := if s.keepsEast then { n.east with silence := saturate 255 (n.east.silence + 1) } else n.east
    lineSilence := saturate 255 (n.lineSilence + 1)
    clashCount := if n.clash then min clashFrames (n.clashCount + 1) else n.clashCount }

/-- A west record silent too long (R118): ABSENT, its reported items gone. -/
def WestRecord.expire (r : WestRecord) : WestRecord :=
  if silentFrames ≤ r.silence ∧ r.presence ≠ .absent then
    { r with presence := .absent, laneBusy := none, latchClass := .noAlarm, latchAcknowledged := false }
  else r

/-- An east record silent too long (R118). -/
def EastRecord.expire (r : EastRecord) : EastRecord :=
  if silentFrames ≤ r.silence ∧ r.presence ≠ .absent then { r with presence := .absent, westFault := none } else r

/-- The values at a resume from supply hold (R124): the records UNKNOWN and the line silence gone; the clash kept. -/
def Neighbours.resume (n : Neighbours) : Neighbours :=
  { n with west := .reset, east := .reset, lineSilence := 0, lineSilent := false }

/-- The west-lane condition of stray marking (R62). -/
def State.westLaneQuiet (s : State) : Bool :=
  !s.keepsWest || s.neighbours.west.presence != .present || s.neighbours.west.laneBusy == some false

/-- The own-lane condition of stray marking (R61): no lane, or a clear run of 250 or more. -/
def State.ownLaneQuiet (s : State) : Bool := !s.ownsLane || 250 ≤ s.lane.clearRun

/-- Strays marked when both lane conditions hold (R60). -/
def State.strayMarked (s : State) (table : List Record) : List Record :=
  if s.ownLaneQuiet && s.westLaneQuiet then markStrays s.settings.strayAge s.stamp table else table

end Sys2Proof.Machine
end

