-- ==== Sys2Proof/Machine/Flags.lean ====
section
/-! DEFINITION. The flags and outputs computed from the state: the STATUS notice (R44, R84, R115), the lamp segments and the
sounder (R168 to R172), and the antenna drive (R22). They hold nothing of their own. -/

namespace Sys2Proof.Machine

/-! ### STATUS -/

/-- The lane is busy while the passage state is not CLEAR (R84); not set on a pedestal that owns no lane (R72, R115). -/
def State.laneBusy (s : State) : Bool := s.ownsLane && s.lane.passage != .clear

/-- The sighting table after the aging and the stray marking that are due (R56, steps 2 and 3). -/
def State.tableAfter (s : State) : List Record :=
  s.strayMarked (freeRecords s.stamp (fadeRecords s.stamp s.sightings))

/-- The field state after the pending request is taken (R21). -/
def FieldDriver.taken (f : FieldDriver) : Bool :=
  match f.request with
  | some .run => true
  | some .stop => false
  | none => f.running

/-- The flags of a STATUS built at a frame start (R115). `wasRunning` is the field state before the frame start; `view` says
which of the items that change at this frame start are reported after the change. -/
def State.statusFlags (s : State) (wasRunning : Bool) (view : StatusView) : StatusFlags where
  westFault := s.sampler.west.faulted
  eastFault := s.sampler.east.faulted
  innerStuck := s.ownsLane && (if view.inner then s.lane.raiseStuck.inner.stuck else s.lane.inner.stuck)
  outerStuck := s.ownsLane && (if view.outer then s.lane.raiseStuck.outer.stuck else s.lane.outer.stuck)
  laneBusy := s.laneBusy
  service := s.startup.key == .service
  defaulted := s.startup.defaulted
  clash := s.neighbours.clash
  watchedTag := watchedInField (if view.watched then s.tableAfter else s.sightings)
  fieldRunning := if view.running then s.field.running else wasRunning

/-- The STATUS notice of the part (R114, R115): "A pedestal that owns no lane sends ... latch class 0 and acknowledged 0". -/
def State.statusNotice (s : State) (wasRunning : Bool) (view : StatusView) : Notice :=
  .status s.cadence.superFrame (s.statusFlags wasRunning view) (if s.ownsLane then s.alarm.latch.cls else .noAlarm)
    (s.ownsLane && s.alarm.latch.acknowledged)

/-! ### Lamps and sounder -/

/-- What a segment shows (Table 10-2). -/
inductive Segment where
  | dark
  | steady
  | slowFlash
  | fastFlash
  deriving DecidableEq, Repr

/-- Whether a pattern is lit at a tick of the free-running count (Table 10-2). -/
def Segment.lit (p : Segment) (tick : Nat) : Bool :=
  match p with
  | .dark => false
  | .steady => true
  | .slowFlash => tick % 32768 < 16384
  | .fastFlash => tick % 8192 < 4096

/-- What an alarm segment shows for a class and an acknowledged bit (R168, R169). -/
def alarmSegment (c : AlarmClass) (acknowledged : Bool) : Segment :=
  match c, acknowledged with
  | .noAlarm, _ => .dark
  | _, true => .steady
  | .unissued, false => .slowFlash
  | .watched, false => .fastFlash

/-- The lamps and the sounder follow their sources from the reading of the straps on, but not in supply hold (R172). -/
def State.lampsFollow (s : State) : Bool :=
  s.startup.straps.isSome && s.startup.state != .reset && s.startup.state != .hold

/-- The east alarm segment shows the own latch (R168). -/
def State.eastSegment (s : State) : Segment :=
  if s.lampsFollow then alarmSegment s.alarm.latch.cls s.alarm.latch.acknowledged else .dark

/-- The west alarm segment shows the west neighbour's latch as reported (R169). -/
def State.westSegment (s : State) : Segment :=
  if s.lampsFollow then alarmSegment s.neighbours.west.latchClass s.neighbours.west.latchAcknowledged else .dark

/-- The conditions that light the fault segment (R170). -/
def State.faultShown (s : State) : Bool :=
  s.sampler.west.faulted || s.sampler.east.faulted || s.lane.inner.stuck || s.lane.outer.stuck || s.startup.defaulted ||
    s.neighbours.clash || s.neighbours.lineSilent || s.startup.key == .service || s.startup.state == .strapFault

/-- The fault segment: steady or dark (R170). -/
def State.faultSegment (s : State) : Segment := if s.lampsFollow && s.faultShown then .steady else .dark

/-- The sounder: an unacknowledged alarm on either segment, with the sounder enabled (R171). -/
def State.sounder (s : State) : Bool :=
  s.lampsFollow && s.settings.sounderEnable &&
    ((s.alarm.latch.cls != .noAlarm && !s.alarm.latch.acknowledged) ||
      (s.neighbours.west.latchClass != .noAlarm && !s.neighbours.west.latchAcknowledged))

/-- Whether a segment is lit now. -/
def State.litNow (s : State) (p : Segment) : Bool := p.lit s.freeRun

/-! ### Antenna drive and line -/

/-- Whether the faces carry carrier now: the drive is on and the pattern has carrier at the present offset (R22). -/
def State.carrier (s : State) : Bool :=
  s.field.drive && carrierPattern s.cadence.slotKey s.cadence.offset

/-- Whether the part drives the line low now: through the 24 bit times of its break, not in the wait after it (R94), and in its
low bits while sending (R92). -/
def State.drivesLow (s : State) : Bool :=
  let bit := (s.cadence.clock - s.line.txFrom) / Config.unitsPerBit
  match s.transmitter with
  | .brk => s.line.sending.isEmpty && bit < 24
  | .sending => (s.line.sending.flatMap characterLevels)[bit]? == some false
  | .off => false
  | .waiting => false

end Sys2Proof.Machine
end

