-- ==== Sys2Proof/Machine/CadenceUnit.lean ====
section
/-! DEFINITION. The cadence unit and what every block does at a frame start (chapter 1; R2, R6, R9, R20, R21, R81 to R85,
R114, R118, R120, R121, R130, R144, R145, R152, R173), and the adoption of a CADENCE (R8, R12 to R18). -/

namespace Sys2Proof.Machine

/-! ### The frame-start event -/

/-- Whether a qualifying CADENCE was adopted within the 512 ticks before a frame 0 that begins at this tick (R9). -/
def Cadence.recentlyQualified (c : Cadence) (tick : Nat) : Bool :=
  match c.lastQualifying with
  | some t => tick - t ≤ 512
  | none => false

/-- The mark at a frame start: at a frame 0 it is withheld or becomes pending (R9); a mark still pending at any other frame
start has waited more than 256 ticks, and is abandoned (R11). -/
def Cadence.markAt (c : Cadence) (tick index : Nat) (adopted : Bool) : Mark :=
  if index = 0 then (if adopted || c.recentlyQualified tick then .absent else .pending)
  else if c.mark = .pending then .absent else c.mark

/-- The cadence unit at a frame start with stamp `st`, start offset `off` and adoption mark `adopted`; the frame stands at
offset `at0` (R2, R5, R6, R9). -/
def Cadence.beginFrame (c : Cadence) (st : Stamp) (off at0 : Nat) (adopted : Bool) : Cadence :=
  { c with
    frameIdx := st.index
    superFrame := st.superFrame
    offset := at0
    startOffset := off
    adoptedFrame := adopted
    skips := []
    slotsEnded := 0
    coilChecked := false
    slotKey := slotKeyOf st
    frameOut := st.index % 2 == 0
    mark := c.markAt (c.clock / Config.unitsPerTick) st.index adopted
    markFrame := if st.index = 0 then st.superFrame else c.markFrame }

/-- The field driver at a frame start: the pending request is taken (R21), and a running frame is driven from its start offset
(R22). -/
def FieldDriver.beginFrame (f : FieldDriver) (off : Nat) : FieldDriver where
  running := f.taken
  request := none
  frameRuns := f.taken
  drive := f.taken && off < 320

/-- A run request raised; it replaces a pending one (R20). -/
def State.raiseRequest (s : State) (r : RunRequest) : State := s.withField { s.field with request := some r }

/-- The STATUS of frame index 2p (R114). -/
def State.offerStatus (s : State) (wasRunning : Bool) (view : StatusView) : State :=
  if s.cadence.frameIdx = 2 * s.position then s.offer (s.statusNotice wasRunning view) else s

/-- The frame-start event of the frame with stamp `st` (R2): every block does its frame-start work, and a STATUS is offered at
frame index 2p, with the latch as it stands before a settlement of the same frame start (notes/assumptions/36.md). The
consequences that are steps of their own (fading, freeing, marking, stuck beams, expiries) are theirs. -/
def State.frameStartEvent (s : State) (st : Stamp) (off at0 : Nat) (adopted : Bool) (view : StatusView) : State :=
  let wasRunning := s.field.running
  let s := s.withCadence (s.cadence.beginFrame st off at0 adopted)
  let s := s.withField (s.field.beginFrame off)
  let s := s.withSightings (limitFirstStamps st s.sightings)
  let s := s.withLane (s.lane.frameStart st)
  let s := if st.index = 0 then s.withNeighbours s.countSilence else s
  let s := s.withAdj { s.adj with list := s.adj.list.map Adjudication.countDown, claims := countClaims s.adj.claims }
  let s := s.withCarried (countGraces s.carried)
  let s := s.withAlarm { s.alarm with journal := ageJournal s.alarm.journal }
  s.offerStatus wasRunning view

/-- A frame 0 begun at joining (R8, R20, R82): the part is JOINED, a passage in progress takes the new stamp, and unless the key
stands in SERVICE the RUN request is raised after the frame-start event. Before the key is first read it reads RUN (R20;
notes/assumptions/18.md). The frame 0 is one that begins while JOINED (notes/assumptions/19.md). -/
def State.joinAt (s : State) (superFrame : BitVec 16) (off : Nat) (adopted : Bool) : State :=
  let st : Stamp := ⟨superFrame, 0⟩
  let s := s.withCadence { s.cadence with join := .joined }
  let s := s.withStartup { s.startup with state := .joined }
  let s := s.withLane (s.lane.restamp st)
  let s := s.frameStartEvent st off off adopted .before
  if s.startup.keyStarted && s.startup.key == .service then s else s.raiseRequest .run

/-! ### Adoption -/

/-- The whole ticks elapsed since a break was recognized (R8, R15, R16; notes/assumptions/9.md). -/
def State.ticksSince (s : State) (b : PendingBreak) : Nat := (s.cadence.clock - b.moment) / Config.unitsPerTick

/-- The offset E = p − (d + 3) (R13). -/
def breakError (b : PendingBreak) (d : Byte) : Int := (b.position : Int) - ((d.toNat : Int) + 3)

/-- The offset D between the two counts (R13). -/
def phaseOffset (e : Int) : Int := if e < 8192 then e else e - 16384

/-- The receiver's own number for the mark, M (R13). -/
def ownNumber (b : PendingBreak) (e : Int) : BitVec 16 := if e < 8192 then b.superFrame else b.superFrame + 1

/-- "The CADENCE qualifies when (N − M) mod 65,536 lies in 0..32,767" (R13). -/
def qualifies (n m : BitVec 16) : Bool := (n - m).toNat ≤ 32767

/-- A forward move of `k` ticks in the frame in progress (R15): the ticks are skipped, the frame is marked begun by adoption,
and a pending mark is abandoned. -/
def Cadence.moveForward (c : Cadence) (k : Nat) : Cadence :=
  { c with
    offset := c.offset + k
    skips := c.skips ++ [(c.offset, k)]
    adoptedFrame := true
    mark := if c.mark = .pending then .absent else c.mark }

/-- The effects of a change of number (R17): the sighting table and the claims list are emptied, the adjudications abandoned,
the responder's EVIDENCE withdrawn (R132), and a passage in progress takes the current stamp. -/
def State.numberChanged (s : State) : State :=
  let s := s.abandonAll.withdrawEvidence
  let s := s.withAdj { s.adj with claims := [] }
  let s := s.withSightings []
  s.withLane (s.lane.restamp s.stamp)

/-- The adoption during listening (R8): the number becomes N, with the effects of a change of number when N is not the number
the part holds (R17, R144; notes/assumptions/30.md); frame 0 begins at d + 3 plus the elapsed ticks, and the last qualifying
cadence is recorded. -/
def State.adoptListening (s : State) (b : PendingBreak) (n : BitVec 16) (d : Byte) : State :=
  let off := d.toNat + 3 + s.ticksSince b
  let s := s.withCadence { s.cadence with lastQualifying := some s.freeRun, selfLed := false, pendingBreak := none }
  (if n = s.cadence.superFrame then s else s.numberChanged).joinAt n off true

/-- The cadence unit with the number N, when it differs from M (R17: "When N equals M, the number is unchanged"). -/
def Cadence.renumber (c : Cadence) (n m : BitVec 16) : Cadence := if n = m then c else { c with superFrame := n }

/-- A pending mark abandoned (R11). -/
def Cadence.abandonMark (c : Cadence) : Cadence := { c with mark := if c.mark = .pending then .absent else c.mark }

/-- The phase action of a qualifying CADENCE with its number N (R14 to R17), `m`, `e` and `dd` being M, E and D: 0..512 keeps the
phase; −512..−1 moves forward, within frame 0 or across the end of frame 24; anything else jumps to a new frame 0
(notes/assumptions/10.md). A break carried over from the last ticks of listening has E below 0, and moves by −D within frame 0
(notes/assumptions/33.md). -/
def State.phaseAction (s : State) (b : PendingBreak) (n m : BitVec 16) (d : Byte) (e dd : Int) : State :=
  let place := d.toNat + 3 + s.ticksSince b
  if 0 ≤ dd ∧ dd ≤ 512 then s.withCadence (s.cadence.abandonMark.renumber n m)
  else if -512 ≤ dd ∧ dd < 0 then
    if 0 ≤ e ∧ s.cadence.frameIdx ≠ 0 then s.frameStartEvent ⟨n, 0⟩ place place true .before
    else
      let k := if 0 ≤ e then place - s.cadence.offset else (-dd).toNat
      s.withCadence ((s.cadence.moveForward k).renumber n m)
  else
    (s.withField { s.field with drive := false }).frameStartEvent ⟨n, 0⟩ place place true .before

/-- A CADENCE from another station judged while JOINED (R13): one that does not qualify is ignored; one that does is recorded,
and takes its phase action and its number together. When a new frame 0 begins with a changed number, what that frame start would make
due is abandoned or emptied before its command can be given: the model's choice (notes/assumptions/39.md). -/
def State.judgeCadence (s : State) (b : PendingBreak) (n : BitVec 16) (d : Byte) : State :=
  let e := breakError b d
  let m := ownNumber b e
  if qualifies n m then
    let s := s.withCadence { s.cadence with lastQualifying := some s.freeRun, selfLed := false }
    let s := s.phaseAction b n m d e (phaseOffset e)
    if n = m then s else s.numberChanged
  else s

/-- The pending break discarded (R12). -/
def State.dropBreak (s : State) : State := s.withCadence { s.cadence with pendingBreak := none }

/-- A CADENCE from another station completes (R12): paired with its break, it is adopted while LISTENING (R8) or judged while
JOINED (R13); with no break it has no effect on the cadence unit. -/
def State.hearCadence (s : State) (n : BitVec 16) (d : Byte) : State :=
  match s.cadence.pendingBreak.filter PendingBreak.paired, s.cadence.join with
  | some b, .listening => s.adoptListening b n d
  | some b, .joined => s.dropBreak.judgeCadence b n d
  | _, _ => s.dropBreak

end Sys2Proof.Machine
end

