-- ==== Sys2Proof/Machine/Operands.lean ====
section
/-! DEFINITION. What the operands of the commands mean: envelopes and bit streams of a reply slot (R25 to R27, R38, R39),
coil readings (R29 to R31), straps (R177), the bytes of the configuration image (R179, R180, Table 11-2) and the staff key's
inputs (R182). -/

namespace Sys2Proof.Machine

/-! ### Reply slots -/

/-- The amplitude converted from an envelope: "an envelope at or above full scale converts to 1023" (R25). -/
def amplitudeOf (envelope : Nat) : Nat := min 1023 envelope

/-- The receive channel of a face within a slot (R25): its envelope hold, the bits captured, and the amplitude once converted. -/
structure Channel where
  hold : Nat
  stream : List Bool
  amplitude : Option Nat
  deriving DecidableEq, Repr

/-- Slot tick `t` of a channel that is converted at slot tick `conversion` (R25): the hold is cleared at slot tick 0, follows the
strongest envelope in slot ticks 2 to 15 while the bits are captured, and is converted at its own tick. -/
def Channel.tick (conversion : Nat) (c : Channel) (x : FaceTick) (t : Nat) : Channel :=
  if t = 0 then ⟨0, [], none⟩
  else if 2 ≤ t ∧ t ≤ 15 then { c with hold := max c.hold x.envelope, stream := c.stream ++ x.bits }
  else if t = conversion then { c with amplitude := some (amplitudeOf c.hold) }
  else c

/-- What a face heard, tick by tick: the envelope of each tick with its bits. -/
def faceTicks (envelopes : List Nat) (bits : List (List Bool)) : List FaceTick := envelopes.zipWith FaceTick.mk bits

/-- The channel after the ticks of a slot (R25). -/
def Channel.run (conversion : Nat) (ticks : List FaceTick) : Channel :=
  ticks.zipIdx.foldl (fun c x => c.tick conversion x.1 x.2) ⟨0, [], none⟩

/-- The slot tick of the west face's conversion (R25). -/
def westConversion : Nat := 16

/-- The slot tick of the east face's conversion (R25). -/
def eastConversion : Nat := 17

/-- The amplitude of a face after R26: 0 for a FAULTED face. -/
def Face.amplitude (f : Face) (c : Channel) : Nat := if f.faulted then 0 else c.amplitude.getD 0

/-- The captured stream of a face after R26: no stream for a FAULTED face. -/
def Face.stream (f : Face) (c : Channel) : List Bool := if f.faulted then [] else c.stream

/-- The lead-in FF01h (R36, Table 3-1). -/
def leadIn : List Bool := bitsOf 0xFF01#16

/-- The reply word: the 48 bits after the first lead-in that at least 48 further bits follow (R38). -/
def findWord : List Bool → Option (List Bool)
  | [] => none
  | b :: bs =>
    if (b :: bs).take 16 == leadIn && 64 ≤ (b :: bs).length then some (((b :: bs).drop 16).take 48)
    else findWord bs

/-- What the decoder makes of a slot (Table 2-4). -/
inductive Decoded where
  | garbled
  | misplaced
  | reply (serial : Serial) (unissued : Bool)
  deriving DecidableEq, Repr

/-- The three tests of a reply word, the first failure deciding (R39). -/
def decodeWord (key : BitVec 4) (word : BitVec 48) : Decoded :=
  let serial : Serial := word.extractLsb' 16 32
  let statusEcho : Byte := word.extractLsb' 8 8
  let status : BitVec 4 := word.extractLsb' 12 4
  let echo : BitVec 4 := word.extractLsb' 8 4
  if crc8 (be32 serial ++ [statusEcho]) ≠ word.extractLsb' 0 8 then .garbled
  else if status ≠ 6 ∧ status ≠ 9 then .garbled
  else if echo ≠ key then .misplaced
  else .reply serial (status == 6)

/-- The decoder's outcome for the chosen face's stream (R38, R39). -/
def decodeStream (key : BitVec 4) (bits : List Bool) : Decoded :=
  match findWord bits with
  | none => .garbled
  | some word => decodeWord key (BitVec.ofNat 48 (bitsToNat word))

/-- Whether a serial matches an enabled watch entry (R43). -/
def watchMatch (watch : List WatchEntry) (serial : Serial) : Bool :=
  watch.any (fun e => e.enabled && e.serial == serial)

/-! ### The coil check -/

/-- A bad reading: OPEN 1000..1023 or SHORTED 0..40 (R29). -/
def coilBad (reading : Nat) : Bool := reading ≤ 40 || 1000 ≤ amplitudeOf reading

/-- A face after a check result (R30, R31, Table 2-6). -/
def Face.check (f : Face) (bad : Bool) : Face :=
  match f.faulted, bad with
  | false, false => ⟨false, 0⟩
  | false, true => if f.count = 0 then ⟨false, 1⟩ else ⟨true, 0⟩
  | true, true => ⟨true, 0⟩
  | true, false => if f.count < 2 then ⟨true, f.count + 1⟩ else ⟨false, 0⟩

/-! ### Straps -/

/-- The straps of the pins (R177): an end pedestal when the row-end pin is active (low), and at position 9. -/
def strapsOf (pins : BitVec 4) (rowEndLow : Bool) : Straps := ⟨pins.toNat, rowEndLow || pins.toNat == 9⟩

/-- A position of 1..9 completes STRAPS (R177). -/
def Straps.valid (x : Straps) : Bool := 1 ≤ x.position && x.position ≤ 9

/-! ### The configuration image -/

/-- A one-byte field. -/
def field8 (bytes : List Byte) (i : Nat) : Nat := (bytes.getD i 0).toNat

/-- A two-byte field, its highest byte at the lower address (Table 11-2). -/
def field16 (bytes : List Byte) (i : Nat) : Nat := (of16 (bytes.getD i 0) (bytes.getD (i + 1) 0)).toNat

/-- Watch entry `k`: five bytes from 14 + 5k, serial then enable (Table 11-2). -/
def watchEntryOf (bytes : List Byte) (k : Nat) : WatchEntry :=
  let i := 14 + 5 * k
  ⟨of32 (bytes.getD i 0) (bytes.getD (i + 1) 0) (bytes.getD (i + 2) 0) (bytes.getD (i + 3) 0), bytes.getD (i + 4) 0 == 1⟩

/-- A value in a range that includes both ends. -/
def inRange (lo hi x : Nat) : Bool := lo ≤ x && x ≤ hi

/-- Every field of Table 11-2 lies in its range (R180). -/
def imageInRange (bytes : List Byte) : Bool :=
  inRange 8 24 (field8 bytes 0) && inRange 8 255 (field8 bytes 1) && inRange 128 240 (field8 bytes 2) &&
    inRange 128 248 (field8 bytes 3) && inRange 256 65535 (field16 bytes 4) && inRange 250 3000 (field16 bytes 6) &&
    inRange 16 255 (field8 bytes 8) && inRange 50 3000 (field16 bytes 9) && inRange 500 15000 (field16 bytes 11) &&
    inRange 0 3 (field8 bytes 13) && (List.range 8).all (fun k => field8 bytes (18 + 5 * k) ≤ 1)

/-- The settings an image holds (Table 11-2). -/
def imageSettings (bytes : List Byte) : Settings where
  settle := field8 bytes 0
  noiseFloor := field8 bytes 1
  normalThreshold := field8 bytes 2
  soloThreshold := field8 bytes 3
  evidenceFloor := field16 bytes 4
  strayAge := field16 bytes 6
  moveStep := field8 bytes 8
  holdOff := field16 bytes 9
  grace := field16 bytes 11
  latchMode := if (bytes.getD 13 0).getLsbD 0 then .latched else .clearing
  sounderEnable := (bytes.getD 13 0).getLsbD 1
  watch := (List.range 8).map (watchEntryOf bytes)

/-- The image read: none (to be defaulted) at a check mismatch over bytes 0..53 or at any field out of its range (R180); bytes
that are not 55 are no complete transfer. -/
def readImage (bytes : List Byte) : Option Settings :=
  if bytes.length = 55 ∧ crc8 (bytes.take 54) = bytes.getD 54 0 ∧ imageInRange bytes = true then
    some (imageSettings bytes)
  else none

/-- What the part does on the port for the one read of bytes 0..54 (R179), but for the stop: start, device address 1010000 with
the write direction, word address 00h, repeated start, device address with the read direction, and 55 bytes read, each but the
last acknowledged. -/
def configRead : List PortAct :=
  [.start, .send 0xA0, .send 0x00, .repeatedStart, .send 0xA1] ++ List.replicate 54 (.read true) ++ [.read false]

/-- What the part has done on the port when it finds no response (R179), but for the stop. -/
def transferActs : NoResponse → List PortAct
  | .noAcknowledge _ 0 => configRead.take 2
  | .noAcknowledge _ 1 => configRead.take 3
  | .noAcknowledge _ _ => configRead.take 5
  | .timeout acts => configRead.take (min acts 59)

/-- The levels the part puts on the two lines of the port: the clock, and the data line, which it drives low or releases. -/
structure PortLevel where
  clock : Bool
  data : Bool
  deriving DecidableEq, Repr

/-- One bit or acknowledge clock (R179): the data line keeps its level while the clock line is high. -/
def bitCell (data : Bool) : List PortLevel := [⟨false, data⟩, ⟨true, data⟩, ⟨false, data⟩]

/-- The levels of each step of the transfer (R179). A start is the data line falling while the clock line is high, a stop the data
line rising while it is; a byte sent is its bits, highest first, and a ninth clock with the data line released; a byte read is
eight clocks with the data line released and a ninth in which the part drives it low to acknowledge. -/
def PortAct.levels : PortAct → List PortLevel
  | .start => [⟨true, true⟩, ⟨true, false⟩, ⟨false, false⟩]
  | .repeatedStart => [⟨false, true⟩, ⟨true, true⟩, ⟨true, false⟩, ⟨false, false⟩]
  | .send b => (bitsOf b).flatMap bitCell ++ bitCell true
  | .read acknowledged => (List.replicate 8 true).flatMap bitCell ++ bitCell (!acknowledged)
  | .stop => [⟨false, false⟩, ⟨true, false⟩, ⟨true, true⟩]

/-- Whether the side that received a byte has acknowledged it, from the data line sampled in the ninth clock (R179): "A data line
sampled high there is a failure to acknowledge". -/
def acknowledgedBy (sample : Bool) : Bool := !sample

/-- The byte read from the data line sampled in its eight clocks, highest bit first (R179). -/
def byteSampled (samples : List Bool) : Byte := BitVec.ofNat 8 (bitsToNat samples)

/-! ### The staff key -/

/-- The raw position of the key from its two inputs; none is invalid (R182). -/
def rawKey (ackLow serviceLow : Bool) : Option KeyPosition :=
  match ackLow, serviceLow with
  | false, false => some .run
  | true, false => some .ack
  | false, true => some .service
  | true, true => none

end Sys2Proof.Machine
end

