-- ==== Sys2Proof/Machine/StartUp.lean ====
section
/-! DEFINITION. The commands of start-up, configuration and supply: POWER_ON_RESET, SERVICE_RESET, RESET_END, STRAPS_SAMPLE,
CONFIG_TRANSFER_COMPLETE, CONFIG_NO_RESPONSE, SUPPLY_HOLD, HOLD_RESUME, LISTENING_EXPIRY (chapter 11, R8). -/

namespace Sys2Proof.Machine

/-- What every meaning answers. -/
abbrev Answer := Host.Outcome State Fault Refusal

/-! ### Resets -/

/-- POWER_ON_RESET (R176): every block takes its power-on reset values. -/
def execPowerOnReset (s : State) : Answer := .next { State.reset with pending := s.pending }

/-- The service reset values (R176 and the tables of the chapters): those of a power-on reset, but that the journal is kept
(R175). The supply is above the power-on level while a service reset is in force (notes/assumptions/21.md). -/
def State.serviceReset (s : State) : State :=
  { State.reset with
    alarm := { AlarmUnit.reset with journal := s.alarm.journal }
    startup := { StartUp.reset with
      resetKind := .service
      supply := if s.startup.supply = .belowPowerOn then .between else s.startup.supply }
    pending := s.pending }

/-- SERVICE_RESET (R176). -/
def execServiceReset (s : State) : Answer := .next s.serviceReset

/-- RESET_END (R176): the block leaves RESET for STRAPS, and the free-running count restarts at 0 (R3). -/
def execResetEnd (s : State) : Answer :=
  .next (if s.startup.state = .reset then
    (s.withStartup { s.startup with state := .straps, supply := .aboveHold }).withCadence { s.cadence with clock := 0, nextFilter := 32 }
  else s)

/-! ### The start sequence -/

/-- The straps taken (R177): a valid position completes STRAPS and CONFIG begins its one read (R179); any other position is
STRAP FAULT (R178). -/
def State.takeStraps (s : State) (x : Straps) : State :=
  if x.valid then
    s.withStartup { s.startup with straps := some x, state := .config, configFrom := s.freeRun, port := [.start] }
  else s.withStartup { s.startup with straps := some x, state := .strapFault }

/-- STRAPS_SAMPLE (R177): at tick 48 of the free-running count. -/
def execStrapsSample (pins : BitVec 4) (rowEndLow : Bool) (s : State) : Answer :=
  .next (if s.startup.state = .straps then (s.toTick 48).takeStraps (strapsOf pins rowEndLow) else s)

/-- The row line controller comes to the line: WAITING and HUNTING, idle count 0, no quiet (R96, R113, R181). How the count runs on when
the line is low at that moment is left open: the line is taken as high, and the count runs from that moment
(notes/assumptions/40.md). -/
def RowLine.wake (l : RowLine) (clock : Nat) : RowLine :=
  { l with
    tx := .waiting
    rx := .hunting
    sending := []
    txFrom := clock
    backoff := false
    idleFrom := clock
    lowFrom := none
    quietFrom := none
    edges := [] }

/-- LISTENING begins (R7, R181): the cadence unit listens, the row line wakes, and the staff key will be read at the next
filter tick (R182). -/
def State.beginListening (s : State) (fromHold : Bool) : State :=
  let s := s.withCadence { s.cadence with join := .listening, listenFrom := s.freeRun, fromHold := fromHold }
  let s := s.withLine (s.line.wake s.cadence.clock)
  s.withStartup { s.startup with state := .listening, keyPending := none, keyStarted := false }

/-- CONFIG completes (R180): the settings are those read, or the defaults for none; the config defaulted flag follows; the
transfer with the steps `acts` has ended with a stop condition (R179), and LISTENING begins. -/
def State.finishConfig (s : State) (image : Option Settings) (acts : List PortAct) : State :=
  let s := s.withStartup { s.startup with
    image := some (image.getD defaultSettings)
    defaulted := image.isNone
    port := acts ++ [.stop] }
  s.beginListening false

/-- The tick at which a transfer that has not completed is given up (R179). -/
def State.configLimit (s : State) : Nat := s.startup.configFrom + 1024

/-- CONFIG_TRANSFER_COMPLETE (R180). A transfer that completes only after the 1,024 ticks has found no response (R179;
notes/assumptions/25.md). -/
def execConfigTransferComplete (wait : Nat) (bytes : List Byte) (s : State) : Answer :=
  .next (if s.startup.state = .config then
    (if (s.waitBits wait).cadence.clock ≤ s.configLimit * Config.unitsPerTick then
      (s.waitBits wait).finishConfig (readImage bytes) configRead
    else (s.toTick s.configLimit).finishConfig none (transferActs (.timeout 59)))
  else s)

/-- Time passes to the moment at which no response was found (R179): that of the missing acknowledge, and no later than the 1,024
ticks. -/
def State.toNoResponse (s : State) : NoResponse → State
  | .noAcknowledge wait _ =>
    if (s.waitBits wait).cadence.clock ≤ s.configLimit * Config.unitsPerTick then s.waitBits wait else s.toTick s.configLimit
  | .timeout _ => s.toTick s.configLimit

/-- CONFIG_NO_RESPONSE (R179): a missing acknowledge, or 1,024 ticks; the transfer is ended with a stop condition and the image is
defaulted (R180). -/
def execConfigNoResponse (cause : NoResponse) (s : State) : Answer :=
  .next (if s.startup.state = .config then (s.toNoResponse cause).finishConfig none (transferActs cause) else s)

/-! ### Supply hold -/

/-- The state to resume (R183), none where no hold begins. -/
def resumeOf : StartState → Option ResumeTo
  | .straps => some .straps
  | .config => some .straps
  | .strapFault => some .strapFault
  | .listening => some .listening
  | .joined => some .listening
  | .reset => none
  | .hold => none

/-- The cadence unit at a hold (R7, Table 1-2). -/
def Cadence.enterHold (c : Cadence) : Cadence :=
  { c with
    join := .notJoined
    lastQualifying := none
    pendingBreak := none
    mark := .absent
    adoptedFrame := false
    selfLed := false
    frameOut := false }

/-- Every block takes its supply hold values (R183; R19, R69, R90, R101, R112, R113, R124, R144, R149, R156, R175, R176). -/
def State.enterHold (s : State) (r : ResumeTo) : State :=
  { s with
    cadence := s.cadence.enterHold
    field := FieldDriver.reset
    sightings := []
    line := RowLine.reset
    adj := { s.adj with list := [], claims := [] }
    startup := { s.startup with
      state := .hold
      resumeTo := some r
      supply := .between
      keyPending := none
      keyStarted := false
      port := if s.startup.state = .config then [] else s.startup.port } }

/-- SUPPLY_HOLD (R183). In RESET the supply is only noted: "the block stays in RESET until the supply rises above the hold
level" (R176). -/
def execSupplyHold (wait : Nat) (s : State) : Answer :=
  .next (match resumeOf s.startup.state with
  | some r => (s.waitBits wait).enterHold r
  | none =>
    if s.startup.supply = .aboveHold then s.withStartup { s.startup with supply := .between } else s)

/-- What every resume does: the free-running count restarts at 0 (R3), the lane monitor discards what it held (R90), and the
neighbour records become UNKNOWN (R124). The state to resume stays as the entry to the hold set it (R176). -/
def State.resume (s : State) : State :=
  let s := s.withCadence { s.cadence with clock := 0, nextFilter := 32 }
  let s := s.withLane s.lane.resume
  let s := s.withNeighbours s.neighbours.resume
  s.withStartup { s.startup with supply := .aboveHold }

/-- HOLD_RESUME (R184): LISTENING, the start sequence from its beginning with the kept items as kept (notes/assumptions/17.md),
or STRAP FAULT. -/
def execHoldResume (s : State) : Answer :=
  .next (if s.startup.state = .hold then
    (match s.startup.resumeTo with
    | some .straps => s.resume.withStartup { s.resume.startup with state := .straps }
    | some .strapFault => s.resume.withStartup { s.resume.startup with state := .strapFault }
    | some .listening => s.resume.beginListening true
    | none => s)
  else s)

/-! ### The end of listening -/

/-- The number a part that leads itself begins with: 0 after a reset, the kept number + 1 after a hold (R8). -/
def Cadence.selfNumber (c : Cadence) : BitVec 16 := if c.fromHold then c.superFrame + 1 else 0

/-- A break recognized in the last ticks of listening: "its tick position p is taken as 0, and its number as the super-frame
number begun on expiry" (R8). -/
def Cadence.carryBreak (c : Cadence) (n : BitVec 16) : Cadence :=
  { c with pendingBreak := c.pendingBreak.map (fun b => { b with position := 0, superFrame := n }) }

/-- LISTENING_EXPIRY (R8): 32,768 ticks after listening began, with no CADENCE adopted, the part leads itself from tick
position 0 and becomes JOINED. -/
def execListeningExpiry (s : State) : Answer :=
  .next (if s.cadence.join = .listening then
    let s := s.toTick (s.cadence.listenFrom + listeningTicks)
    let n := s.cadence.selfNumber
    (s.withCadence { (s.cadence.carryBreak n) with selfLed := true }).joinAt n 0 false
  else s)

end Sys2Proof.Machine
end

