-- ==== Sys2Proof/Machine/Frames.lean ====
section
/-! DEFINITION. The commands of the frame and of the sensors: FRAME_START, TRANSMIT_WINDOW_END, SLOT_END, COIL_CHECK,
FILTER_TICK (chapters 1, 2, 3, 5; R182). -/

namespace Sys2Proof.Machine

/-- FRAME_START (R1, R2): the tick position reaches the next frame's start by counting, with start offset 0. From frame 24 the
next is frame 0 of the next super-frame. -/
def execFrameStart (view : StatusView) (s : State) : Answer :=
  .next (if s.isJoined then
    let s := s.toOffset (frameLength s.cadence.frameIdx)
    (s.frameStartEvent s.stamp.next 0 (s.cadence.offset - frameLength s.cadence.frameIdx) false view).finishOffers .none
  else s)

/-- TRANSMIT_WINDOW_END (R22): at the end of tick 319 both drive outputs are released. -/
def execTransmitWindowEnd (s : State) : Answer :=
  .next (if s.isJoined then
    let s := s.toOffset 320
    s.withField { s.field with drive := false }
  else s)

/-! ### Reply slots -/

/-- Whether all 18 ticks of slot `j` are run in the frame (R24): none before the start offset, none among skipped ticks. -/
def Cadence.slotSampled (c : Cadence) (settle j : Nat) : Bool :=
  c.startOffset ≤ slotBegin settle j &&
    !c.skips.any (fun (f, k) => f < slotBegin settle j + 18 && slotBegin settle j < f + k)

/-- The decoder's outcome for a slot that is not EMPTY (R27): the face with the larger amplitude, the west between equals. -/
def State.decodeSlot (s : State) (w e : Nat) (west east : Channel) : Decoded :=
  decodeStream s.cadence.slotKey (if e ≤ w then s.sampler.west.stream west else s.sampler.east.stream east)

/-- A slot classified and, when it is a REPLY, handed to the sighting table (R26, R27, R39, R40, R43). -/
def State.takeSlot (s : State) (west east : Channel) : State :=
  let w := s.sampler.west.amplitude west
  let e := s.sampler.east.amplitude east
  if w < s.settings.noiseFloor ∧ e < s.settings.noiseFloor then s
  else
    match s.decodeSlot w e west east with
    | .reply serial unissued =>
      s.withSightings (applyReply s.settings.moveStep
        ⟨serial, unissued, watchMatch s.settings.watch serial, s.stamp, w, e⟩ s.sightings)
    | .garbled => s
    | .misplaced => s

/-- SLOT_END (R24 to R27): at the end of the slot's last tick, before or after the other work of that moment
(notes/assumptions/29.md). A slot that is not sampled has no outcome, and the slots of a frame end in their order (R40). -/
def execSlotEnd (slot : Nat) (westEnvelopes eastEnvelopes : List Nat) (westBits eastBits : List (List Bool)) (s : State) : Answer :=
  let stop := slotBegin s.settings.settle slot + 18
  .next (if s.isJoined ∧ slot < 16 ∧ s.cadence.slotSampled s.settings.settle slot ∧ s.cadence.slotsEnded ≤ slot ∧
      s.cadence.offset ≤ stop then
    let s := s.toOffset stop
    (s.withCadence { s.cadence with slotsEnded := slot + 1 }).takeSlot
      (Channel.run westConversion (faceTicks westEnvelopes westBits)) (Channel.run eastConversion (faceTicks eastEnvelopes eastBits))
  else s)

/-! ### The coil check -/

/-- COIL_CHECK (R28 to R32): in the tail of frame index 12, complete at the end of offset 609 + S; the results are applied to
each face on its own reading and history, before or after the other work of that moment, and once in a frame. -/
def execCoilCheck (westReading eastReading : Nat) (s : State) : Answer :=
  let stop := tailBegin s.settings.settle + 2
  .next (if s.isJoined ∧ s.cadence.frameIdx = 12 ∧ s.cadence.coilChecked = false ∧ s.cadence.offset ≤ stop then
    let s := s.toOffset stop
    let s := s.withCadence { s.cadence with coilChecked := true }
    s.withSampler ⟨s.sampler.west.check (coilBad westReading), s.sampler.east.check (coilBad eastReading)⟩
  else s)

/-! ### The filter tick -/

/-- Whether a completed passage is delivered (R80): JOINED, and the staff key not in SERVICE. -/
def State.delivers (s : State) : Bool := s.isJoined && s.startup.key != .service

/-- A completed passage delivered or discarded (R80). -/
def State.takePassage (s : State) (c : Option Completed) : State :=
  match c with
  | some p => if s.delivers then s.deliverPassage p.direction p.startStamp p.endStamp else s
  | none => s

/-- The return-to-CLEAR report of an entry to CLEAR (R80, R166). -/
def State.takeClear (s : State) (entered : Bool) : State := if entered then s.returnToClear else s

/-- A movement into ACK: an acknowledge of the own lane (R162) and, at positions 2 and above, an offer of ACK for the west lane
(R163). -/
def State.keyToAck (s : State) : State :=
  if 2 ≤ s.position then s.acknowledge.offer (.ack (BitVec.ofNat 8 (s.position - 1))) else s.acknowledge

/-- A movement into or out of SERVICE raises STOP or RUN while JOINED (R20). -/
def State.keyRequest (s : State) (old new : KeyPosition) : State :=
  if s.isJoined then
    (if new = .service then s.raiseRequest .stop else if old = .service then s.raiseRequest .run else s)
  else s

/-- A key movement (R182). -/
def State.keyMoved (s : State) (old new : KeyPosition) : State :=
  (if new = .ack then s.keyToAck else s).keyRequest old new

/-- The first reading of the key (R182): taken directly, RUN for invalid, and no movement; found in SERVICE while JOINED it
raises STOP. -/
def State.firstKey (s : State) (raw : Option KeyPosition) : State :=
  let s := s.withStartup { s.startup with key := raw.getD .run, keyPending := none, keyStarted := true }
  if s.isJoined ∧ s.startup.key = .service then s.raiseRequest .stop else s

/-- A later reading of the key (R182): a valid sample that differs becomes pending, and at a second equal sample filtered. -/
def State.nextKey (s : State) (raw : Option KeyPosition) : State :=
  match raw with
  | none => s.withStartup { s.startup with keyPending := none }
  | some k =>
    if k = s.startup.key then s.withStartup { s.startup with keyPending := none }
    else if s.startup.keyPending = some k then
      (s.withStartup { s.startup with key := k, keyPending := none }).keyMoved s.startup.key k
    else s.withStartup { s.startup with keyPending := some k }

/-- The key's part of a filter tick: read from the entry to LISTENING on (R182). -/
def State.sampleKey (s : State) (raw : Option KeyPosition) : State :=
  if s.startup.state = .listening ∨ s.startup.state = .joined then
    (if s.startup.keyStarted then s.nextKey raw else s.firstKey raw)
  else s

/-- Whether the lane monitor works: once the straps have been read after a reset, and from a resume on (R72, R90;
notes/assumptions/17.md, notes/assumptions/20.md). -/
def State.laneWorks (s : State) : Bool := s.startup.straps.isSome || s.startup.resumeTo.isSome

/-- Time passes to the next filter tick, and the one after it falls 32 ticks later (R3). A tick at which another command has been
taken first is not lost. -/
def State.toFilterTick (s : State) : State :=
  let t := s.toTick s.cadence.nextFilter
  t.withCadence { t.cadence with nextFilter := t.cadence.nextFilter + 32 }

/-- The key read at its place in the order. -/
def State.keyAt (s : State) (place now : KeyPlace) (raw : Option KeyPosition) : State :=
  if place = now then s.sampleKey raw else s

/-- What the lane monitor's tick leads to (R80, R166), in the order given, with the key read between if that is its place. -/
def State.takeLaneEvent (s : State) (ev : LaneEvent) (order : TickOrder) (raw : Option KeyPosition) : State :=
  if order.reportFirst then ((s.takeClear ev.enteredClear).keyAt order.key .between raw).takePassage ev.completed
  else ((s.takePassage ev.completed).keyAt order.key .between raw).takeClear ev.enteredClear

/-- The lane monitor's part of a filter tick (R71 to R80). -/
def State.sampleBeams (s : State) (inner outer : Bool) (order : TickOrder) (raw : Option KeyPosition) : State :=
  let (lane, ev) := s.lane.tick s.endPedestal s.stamp inner outer
  (s.withLane lane).takeLaneEvent ev order raw

/-- The beams and the staff key at a filter tick (R71, R182), in the order given. -/
def State.sampleInputs (s : State) (inner outer : Bool) (order : TickOrder) (raw : Option KeyPosition) : State :=
  ((s.keyAt order.key .first raw).sampleBeams inner outer order raw).keyAt order.key .last raw

/-- FILTER_TICK (R3, R71, R182): at every multiple of 32 of the free-running count, in neither RESET nor HOLD. Of the key into ACK, the
return-to-CLEAR report and the delivery the spec orders pairs only; that all six orders of the three may happen is the model's choice
(notes/assumptions/6.md). -/
def execFilterTick (innerBroken outerBroken ackLow serviceLow : Bool) (order : TickOrder) (s : State) : Answer :=
  .next (if s.clockRuns then
    let s := s.toFilterTick
    if s.laneWorks then
      (s.sampleInputs innerBroken outerBroken order (rawKey ackLow serviceLow)).finishOffers .none
    else s
  else s)

end Sys2Proof.Machine
end

