-- ==== Sys2Proof/Machine/FrameWork.lean ====
section
/-! DEFINITION. The consequences of a frame start that are steps of their own in spec/opcode_table.json: RECORD_FADE,
RECORD_AGE_FREE, STRAY_MARK, BEAM_STUCK, EVIDENCE_DEADLINE, HOLD_EXPIRY, NEIGHBOUR_ABSENT, LINE_SILENT, CLASH_CLEAR,
CLAIM_EXPIRY, CARRIED_IN_EXPIRY. Each acts on everything that is due; with nothing due it changes nothing
(notes/assumptions/1.md, notes/assumptions/5.md). -/

namespace Sys2Proof.Machine

/-- A FADE trigger delivered (R87, R126): an UNDIRECTED passage with the record's own span. -/
def State.deliverFade (s : State) (ties : Ties) (r : Record) : State :=
  s.openAdjudication ties .fade .undirected (fadeStart r) r.lastStamp

/-- Whether fading reports are acted on (R87): in TAG_ONLY, and not with the key in SERVICE. -/
def State.takesFades (s : State) : Bool := s.lane.passage == .tagOnly && s.startup.key != .service

/-- RECORD_FADE (R58, R87; notes/assumptions/23.md): records fade, and in TAG_ONLY the reports that qualify are delivered as FADE
triggers, in order of serial. -/
def execRecordFade (ties : Ties) (s : State) : Answer :=
  let reports := fadingReports s.stamp s.sightings
  let t := s.withSightings (fadeRecords s.stamp s.sightings)
  .next (if s.takesFades then (reports.filter fadeTriggers).foldl (fun u r => u.deliverFade ties r) t else t)

/-- RECORD_AGE_FREE (R59). -/
def execRecordAgeFree (s : State) : Answer := .next (s.withSightings (freeRecords s.stamp s.sightings))

/-- STRAY_MARK (R60 to R63). -/
def execStrayMark (s : State) : Answer := .next (s.withSightings (s.strayMarked s.sightings))

/-- BEAM_STUCK (R86). -/
def execBeamStuck (s : State) : Answer := .next (s.withLane s.lane.raiseStuck)

/-- The adjudication of a call id weighed, if it is still COLLECTING (R130). -/
def State.weighId (ties : Ties) (s : State) (id : Byte) : State :=
  match s.adj.list.find? (fun a => a.callId == id && a.state == .collecting) with
  | some a => s.weighListed ties a
  | none => s

/-- EVIDENCE_DEADLINE (R130, R136): the COLLECTING adjudications whose deadline is 0 are weighed one after another in list
order. -/
def execEvidenceDeadline (ties : Ties) (s : State) : Answer :=
  let due := (s.adj.list.filter (fun a => a.state == .collecting && a.deadline == some 0)).map Adjudication.callId
  .next ((due.foldl (State.weighId ties) s).finishOffers ties)

/-- The adjudication leaves the list and settles (R148). -/
def State.settleListed (ties : Ties) (s : State) (a : Adjudication) : State :=
  (s.withList (removeAdj a.callId s.adj.list)).settle ties a

/-- HOLD_EXPIRY (R145): the HOLDING adjudications whose hold is 0 settle one after another in list order. -/
def execHoldExpiry (ties : Ties) (s : State) : Answer :=
  let due := s.adj.list.filter (fun a => a.state == .holding && a.hold == some 0)
  .next ((due.foldl (State.settleListed ties) s).finishOffers ties)

/-- NEIGHBOUR_ABSENT (R118). -/
def execNeighbourAbsent (s : State) : Answer :=
  .next (s.withNeighbours { s.neighbours with west := s.neighbours.west.expire, east := s.neighbours.east.expire })

/-- LINE_SILENT (R120). -/
def execLineSilent (s : State) : Answer :=
  .next (if silentFrames ≤ s.neighbours.lineSilence then s.withNeighbours { s.neighbours with lineSilent := true } else s)

/-- CLASH_CLEAR (R121, R123). -/
def execClashClear (s : State) : Answer :=
  .next (if s.neighbours.clash ∧ clashFrames ≤ s.neighbours.clashCount then
    s.withNeighbours { s.neighbours with clash := false } else s)

/-- CLAIM_EXPIRY (R144). -/
def execClaimExpiry (s : State) : Answer :=
  .next (s.withAdj { s.adj with claims := s.adj.claims.filter (fun c => 0 < c.remaining) })

/-- CARRIED_IN_EXPIRY (R152). -/
def execCarriedInExpiry (s : State) : Answer :=
  .next (s.withCarried (s.carried.filter (fun e => 0 < e.grace)))

end Sys2Proof.Machine
end

