-- ==== Sys2Proof/Machine/LineCommands.lean ====
section
/-! DEFINITION. The commands of the row line: MARK_SEND, MARK_ABANDON, BREAK_RELEASE_TIMEOUT, BREAK_RECOGNIZED, QUIET_END,
FRAMING_ERROR, RECEIVER_IDLE_TIMEOUT, NOTICE_START, COLLISION, NOTICE_SENT, NOTICE_INVALID, CHARACTER_RECEIVED (chapter 6; R10
to R12). -/

namespace Sys2Proof.Machine

/-- `n` bit times in units of time. -/
def bits (n : Nat) : Nat := n * Config.unitsPerBit

/-- The notice in assembly is discarded and the receiver goes to HUNTING (R103); a break paired with it is disregarded (R12). -/
def State.dropAssembly (s : State) : State :=
  (s.withLine { s.line with rx := .hunting }).withCadence
    { s.cadence with pendingBreak := s.cadence.pendingBreak.filter (fun b => !b.paired) }

/-! ### Marks -/

/-- The CADENCE of the pending mark, with delay `d` (R10, R11). -/
def Cadence.markNotice (c : Cadence) (d : Nat) : Notice :=
  .cadence c.markFrame (BitVec.ofNat 8 d) (0 < d) c.selfLed

/-- The break of the mark begins (R94): the CADENCE is offered and is in transmission from this moment, and the line is low. -/
def State.beginMark (s : State) : State :=
  let s := s.withLine (s.line.offer { Queued.fresh (s.cadence.markNotice s.cadence.offset) with inTransmission := true })
  let s := s.withLine { s.line with
    tx := .brk, sending := [], txFrom := s.cadence.clock, idleFrom := s.cadence.clock, lowFrom := some s.cadence.clock }
  s.withCadence { s.cadence with mark := .inSending }

/-- The line is free for a mark as soon as it has been high for 12 bit times, with no quiet running and the transmitter WAITING
(R10). They count as the idle count does, from the end of a character's stop bit (notes/assumptions/38.md). -/
def State.markWaits (s : State) : Bool :=
  s.cadence.mark == .pending && s.cadence.frameIdx == 0 && s.line.tx == .waiting && s.line.quietFrom.isNone &&
    s.line.lowFrom.isNone

/-- MARK_SEND (R10, R11, R94): after the edges that the part sees on the line, a pending mark goes out as soon as the line is free,
within the 255 ticks after the frame 0 start. From when the 12 bit times of R10 count is the model's reading: from the end of the
stop bit (notes/assumptions/38.md). An edge in the last bit time before that does not hold it (section 6.7;
notes/assumptions/14.md). -/
def execMarkSend (s : State) : Answer :=
  .next (let s := s.readEdges 12 Config.unitsPerBit
  if s.markWaits then
    let t := s.toMoment (s.line.idleFrom + bits 12)
    if t.cadence.offset ≤ 255 then t.beginMark.finishOffers .none else s
  else s)

/-- MARK_ABANDON (R11): 256 ticks have passed from the frame 0 start. -/
def execMarkAbandon (s : State) : Answer :=
  .next (if s.cadence.mark = .pending then
    let t := if s.cadence.frameIdx = 0 then s.toOffset 256 else s
    t.withCadence { t.cadence with mark := .absent }
  else s)

/-- The notice in transmission leaves the queue and the transmitter returns to WAITING. -/
def RowLine.endTransmission (l : RowLine) (clock : Nat) : RowLine :=
  { l with tx := .waiting, sending := [], queue := withoutTransmission l.queue, idleFrom := clock }

/-- Whether the part is in the break of its mark and has not yet seen the line return high (R94). -/
def State.ownBreak (s : State) : Bool := s.line.tx == .brk && s.line.sending.isEmpty

/-- The mark is lost 8 bit times after the release of the 24-bit break: the CADENCE is removed with no report (R94). The line stays
low. -/
def State.loseMark (s : State) : State :=
  let s := s.toMoment (s.line.txFrom + bits 32)
  (s.withLine (s.line.endTransmission s.cadence.clock)).withCadence { s.cadence with mark := .absent }

/-- BREAK_RELEASE_TIMEOUT (R94): the line has not returned high by then. -/
def execBreakReleaseTimeout (s : State) : Answer := .next (if s.ownBreak then s.loseMark else s)

/-! ### Breaks -/

/-- Seeing the line high after its own break, the part waits a further 2 bit times in BREAK and then sends its CADENCE (R94). -/
def State.awaitLead (s : State) : State :=
  match s.ownBreak, inTransmission s.line.queue with
  | true, some q =>
    s.withLine { s.line with sending := q.notice.characters s.position, txFrom := s.cadence.clock + bits 2 }
  | _, _ => s

/-- The entry to SENDING written down, once the 2 bit times are over (R94): a back-off lapses at this start of a notice (R98). The
table has no row for it, so `State.transmitter` tells it from its moment on, and the next command on the line writes it
(notes/assumptions/11.md). -/
def State.startLead (s : State) : State :=
  if s.line.tx = .brk ∧ s.transmitter = .sending then s.withLine { s.line with tx := .sending, backoff := false } else s

/-- Whether a low of `low` whole bit times that has ended is a break (R93, R95); a shorter one is a framing error. -/
def isBreak (low : Nat) : Bool := 20 ≤ low

/-- A break recognized (R12, R95): any assembly is discarded, the pending break is recorded with the tick position and the
number, and the quiet and the idle count begin. -/
def State.takeBreak (s : State) : State :=
  let s := s.withCadence { s.cadence with
    pendingBreak := some ⟨s.cadence.clock, s.tickPosition, s.cadence.superFrame, false⟩ }
  s.withLine { s.line with
    rx := .hunting, quietFrom := some s.cadence.clock, idleFrom := s.cadence.clock, lowFrom := none }

/-- The end of the part's own break at a moment, no sooner than its 24 bit times; when the line returns high only after the 8 bit
times that follow them, the mark has been lost before (R94). -/
def State.endOwnBreak (s : State) (moment : Nat) : State :=
  if moment ≤ s.line.txFrom + bits 32 then
    (s.toMoment (max moment (s.line.txFrom + bits 24))).takeBreak.awaitLead
  else (s.loseMark.toMoment moment).takeBreak

/-- BREAK_RECOGNIZED (R93, R95). -/
def execBreakRecognized (spell : LowSpell) (s : State) : Answer :=
  .next (if s.line.rx = .off then s
  else if s.ownBreak then s.endOwnBreak (s.cadence.clock + bits spell.wait)
  else if isBreak spell.low then (s.waitBits spell.wait).startLead.takeBreak
  else s)

/-- QUIET_END (R95): 22 bit times from the break's end. -/
def execQuietEnd (s : State) : Answer :=
  .next (match s.line.quietFrom with
  | some q => let t := s.toMoment (q + bits 22); t.withLine { t.line with quietFrom := none }
  | none => s)

/-- Whether the levels in the middles of 11 bit times and the length of the low make a framing error (R93): the stop bit low, and
the line high again before it has been low for 20 bit times. -/
def isFramingError (levels : BitVec 11) (low : Nat) : Bool := edgeHeard levels.getLsbD == .noStopBit && !isBreak low

/-- FRAMING_ERROR (R93, R103): the character and any assembly are discarded, and a pending break is disregarded (R12). The idle
count runs from the line's return high (notes/assumptions/34.md). -/
def execFramingError (lost : LostCharacter) (s : State) : Answer :=
  .next (if s.line.rx = .off ∨ isFramingError lost.levels lost.low = false then s
  else
    let t := (s.waitBits lost.wait).dropAssembly.dropBreak
    t.withLine { t.line with idleFrom := t.cadence.clock, lowFrom := none })

/-- RECEIVER_IDLE_TIMEOUT (R103): after the edges that come before, the idle count reaches 11 with the notice incomplete. While the
part itself sends it does not (R96). -/
def execReceiverIdleTimeout (s : State) : Answer :=
  .next (let s := s.readEdges 11 1
  match s.line.rx, s.line.lowFrom.isSome || s.line.sends with
  | .assembling bytes _, false =>
    if assemblyComplete bytes then s else (s.toMoment (s.line.idleFrom + bits 11)).dropAssembly
  | _, _ => s)

/-! ### Sending -/

/-- The queue entry at a place marked as in transmission. -/
def startAt (i : Nat) (queue : List Queued) : List Queued :=
  queue.zipIdx.map (fun (q, j) => if j = i then { q with inTransmission := true } else q)

/-- The transmitter begins a notice (R97): it enters SENDING with the framed characters, and a back-off lapses (R98). -/
def State.beginNotice (s : State) (i : Nat) (n : Notice) : State :=
  s.withLine { s.line with
    tx := .sending
    sending := n.characters s.position
    txFrom := s.cadence.clock
    idleFrom := s.cadence.clock
    backoff := false
    queue := startAt i s.line.queue }

/-- NOTICE_START (R97, R110): after the edges that the part sees, with the idle gap reached on a line that is not low, no quiet
running and no mark ready, the queued notice of highest priority, and the oldest of it, begins. An edge in the last bit time before
that does not hold it: such a station "begins too" (R97; notes/assumptions/14.md). -/
def execNoticeStart (s : State) : Answer :=
  .next (let s := s.readEdges s.idleGap Config.unitsPerBit
  if s.line.tx = .waiting ∧ s.line.quietFrom = none ∧ s.line.lowFrom = none ∧ s.cadence.mark ≠ .pending then
    (match (sendPlace s.line.queue 0).bind (fun p => (s.line.queue[p.1]?).map (fun q => (p.1, q.notice))) with
    | some (i, n) => (s.toMoment (s.line.idleFrom + bits s.idleGap)).beginNotice i n
    | none => s)
  else s)

/-- A notice that has lost a collision (R98, R99, R109): a CADENCE is removed; a withdrawn notice is removed with no report; the
eighth failure removes it with a drop report; otherwise it stays, no longer in transmission. -/
def collideEntry (q : Queued) : Option Queued :=
  match q.notice with
  | .cadence .. => none
  | _ =>
    if q.withdrawn then none
    else if maxAttempts ≤ q.attempts + 1 then none
    else some { q with attempts := q.attempts + 1, inTransmission := false }

/-- The drop report of a collision: for a notice that made its eighth failure and is neither a CADENCE nor withdrawn (R99,
R109). -/
def collisionDrop (q : Queued) : Option Notice :=
  match q.notice with
  | .cadence .. => none
  | n => if !q.withdrawn && maxAttempts ≤ q.attempts + 1 then some n else none

/-- The receiver no longer takes the notice in assembly for the part's own (R105). -/
def RxState.notOwn : RxState → RxState
  | .assembling bytes _ => .assembling bytes false
  | .hunting => .hunting
  | .off => .off

/-- Whether a notice is a CADENCE. -/
def isCadence : Notice → Bool
  | .cadence .. => true
  | _ => false

/-- The effects of a collision (R98, R99): the transmitter stops and returns to WAITING under back-off on a line that is low; the
mark of a CADENCE is lost (R10). -/
def State.collide (s : State) (q : Queued) : State :=
  let s := s.withLine { s.line with
    tx := .waiting
    sending := []
    backoff := true
    idleFrom := s.cadence.clock
    lowFrom := some s.cadence.clock
    rx := s.line.rx.notOwn
    queue := s.line.queue.filterMap (fun x => if x.inTransmission then collideEntry x else some x)
    dropped := s.line.dropped ++ (collisionDrop q).toList }
  if isCadence q.notice then s.withCadence { s.cadence with mark := .absent } else s

/-- The level the part sends in a bit of its notice, the start bit of the lead being bit 0; none past its end (R92). -/
def RowLine.sentLevel (l : RowLine) (bit : Nat) : Option Bool := (l.sending.flatMap characterLevels)[bit]?

/-- COLLISION (R98): in the middle of a bit in which the part sends a 1. -/
def execCollision (bit : Nat) (s : State) : Answer :=
  .next (match s.line.sends, s.line.sentLevel bit, inTransmission s.line.queue with
  | true, some true, some q =>
    ((s.toMoment (s.line.txFrom + bits bit + Config.unitsPerBit / 2)).startLead.collide q).finishOffers .none
  | _, _, _ => s)

/-- A sent report (R100): a CALL starts its adjudication's deadline (R130), a final VERDICT part its hold (R145); a CADENCE ends
the mark (R10) and is paired with its own break and discarded (R12). -/
def State.sentReport (s : State) (n : Notice) : State :=
  match n with
  | .call id _ _ _ => s.startDeadline id
  | .verdict id _ _ true _ => s.startHold id
  | .cadence .. => s.withCadence { s.cadence with mark := .absent, pendingBreak := none }
  | _ => s

/-- The part's own receiver has the same notice complete, and hands it to no other block (R105). -/
def State.discardOwn (s : State) : State :=
  match s.line.rx with
  | .assembling _ true => s.dropAssembly
  | _ => s

/-- NOTICE_SENT (R100): after the last bit time of its characters. -/
def execNoticeSent (s : State) : Answer :=
  .next (match s.line.sends, inTransmission s.line.queue with
  | true, some q =>
    let s := (s.toMoment (s.line.txFrom + bits (11 * s.line.sending.length))).startLead
    ((s.withLine { s.line.endTransmission s.cadence.clock with lowFrom := none }).discardOwn.sentReport q.notice).finishOffers .none
  | _, _ => s)

/-! ### Receiving characters -/

/-- NOTICE_INVALID (R103, R104): a bad length, or a complete notice that fails a test, is discarded with no effect. -/
def execNoticeInvalid (s : State) : Answer :=
  .next (match s.line.rx with
  | .assembling bytes _ =>
    if badLength bytes || (assemblyComplete bytes && (assemblyNotice bytes).isNone) then s.dropAssembly else s
  | .off => s
  | .hunting => s)

/-- A lead character begins a notice (R102). It is the part's own when the part's transmitter is sending (R105). A pending break
is paired with it when its lead began within 44 bit times of the break's end, and is disregarded otherwise (R12;
notes/assumptions/13.md). -/
def State.beginAssembly (s : State) (byte : Byte) : State :=
  let s := s.dropAssembly
  let near (b : PendingBreak) : Bool := s.cadence.clock ≤ b.moment + bits (44 + 11)
  (s.withLine { s.line with rx := .assembling [byte] (s.line.tx == .sending) }).withCadence
    { s.cadence with
      pendingBreak := (s.cadence.pendingBreak.filter near).map (fun b => { b with paired := true }) }

/-- A character without lead flag (R102, R103): taken into an assembly that still waits for it, discarded otherwise. -/
def State.takeCharacter (s : State) (byte : Byte) : State :=
  match s.line.rx with
  | .assembling bytes own =>
    if badLength bytes || assemblyComplete bytes then s.dropAssembly
    else s.withLine { s.line with rx := .assembling (bytes ++ [byte]) own }
  | .hunting => s
  | .off => s

/-- CHARACTER_RECEIVED (R93, R102, R103): the levels sampled are a character with its stop bit high; it is taken at the end of the
stop bit, from which the idle count starts again (R96). -/
def execCharacterReceived (wait : Nat) (levels : BitVec 10) (stop : Bool) (s : State) : Answer :=
  .next (if s.line.rx = .off then s
  else
    match edgeHeard (BitVec.cons stop levels).getLsbD with
    | .character byte lead =>
      let t := (s.waitBits wait).startLead
      let t := t.withLine { t.line with idleFrom := t.cadence.clock, lowFrom := none }
      if lead then t.beginAssembly byte else t.takeCharacter byte
    | .glitch => s
    | .noStopBit => s)

end Sys2Proof.Machine
end

