-- ==== Sys2Proof/Machine/ReceiveCommands.lean ====
section
/-! DEFINITION. The commands of a valid notice received: RECEIVE_CADENCE, _STATUS, _CALL, _EVIDENCE, _VERDICT, _SETTLEMENT,
_ALARM, _ACK, _JOURNAL_CALL, _JOURNAL (R106, Table 6-5). The notice is the one the receiver has assembled; with no complete and
valid notice of the kind from another station in assembly the event has not happened, and nothing changes
(notes/assumptions/12.md). -/

namespace Sys2Proof.Machine

/-- The complete and valid notice in assembly, when it is not the part's own, with its sender (R104, R105). -/
def State.incoming (s : State) : Option (Nat × Notice) :=
  match s.line.rx with
  | .assembling bytes false => assemblyNotice bytes
  | _ => none

/-- The receiver hands the notice on and goes to HUNTING (R104); the neighbour table hears its sender (R117, R120, R121). -/
def State.takeNotice (s : State) (sender : Nat) : State :=
  (s.withLine { s.line with rx := .hunting }).hearSender sender

/-- A notice of another kind than CADENCE: a break paired with it is disregarded (R12). -/
def State.takeOther (s : State) (sender : Nat) : State := s.dropAssembly.hearSender sender

/-- RECEIVE_CADENCE (R8, R12 to R18). Its sender is heard before the frame 0 that its own completion begins is counted
(notes/assumptions/35.md). -/
def execReceiveCadence (s : State) : Answer :=
  .next (match s.incoming with
  | some (p, .cadence n d _ _) => ((s.takeNotice p).hearCadence n d).finishOffers .none
  | _ => s)

/-- The reported items of a STATUS (R117). -/
def State.takeStatus (s : State) (sender : Nat) (f : StatusFlags) (c : AlarmClass) (acknowledged : Bool) : State :=
  s.withNeighbours { s.neighbours with
    west := if s.fromWest sender then
        { s.neighbours.west with
          laneBusy := some f.laneBusy, latchClass := c, latchAcknowledged := acknowledged }
      else s.neighbours.west
    east := if s.fromEast sender then { s.neighbours.east with westFault := some f.westFault }
      else s.neighbours.east }

/-- RECEIVE_STATUS (R117). -/
def execReceiveStatus (s : State) : Answer :=
  .next (match s.incoming with
  | some (p, .status _ f c a) => (s.takeOther p).takeStatus p f c a
  | _ => s)

/-- Whether a CALL is answered (R131): JOINED, no clash, from the west neighbour, for the sender's own lane. -/
def State.answersCall (s : State) (sender : Nat) (lane : Byte) : Bool :=
  s.isJoined && !s.neighbours.clash && sender + 1 == s.position && lane.toNat == sender

/-- RECEIVE_CALL (R131, R132). -/
def execReceiveCall (s : State) : Answer :=
  .next (match s.incoming with
  | some (p, .call id lane a b) =>
    let t := s.takeOther p
    if t.answersCall p lane then (t.offerAll (evidenceAnswer id (snapshot a b t.sightings))).finishOffers .none else t
  | _ => s)

/-- The adjudication an EVIDENCE part is merged into (R133): COLLECTING, of its call id, not holding the part yet; one whose
deadline has reached 0 at a frame start is past collecting (R136). -/
def State.collectingFor (s : State) (id : Byte) (part : BitVec 4) : Option Adjudication :=
  s.adj.list.find? (fun a =>
    a.callId == id && a.state == .collecting && a.deadline != some 0 && !a.parts.contains part)

/-- An EVIDENCE part from the partner (R133): merged; a final part leads to weighing at once. -/
def State.takeEvidence (s : State) (id : Byte) (part : BitVec 4) (final : Bool) (es : List EvidenceEntry) : State :=
  match s.collectingFor id part with
  | some a =>
    let m := a.mergePart part final es
    let s := s.withList (replaceAdj m s.adj.list)
    if final then s.weighListed .none m else s
  | none => s

/-- RECEIVE_EVIDENCE (R133 to R136): only from the partner, at position p + 1. -/
def execReceiveEvidence (s : State) : Answer :=
  .next (match s.incoming with
  | some (p, .evidence id part final es) =>
    let t := s.takeOther p
    if p = t.position + 1 then (t.takeEvidence id part final es).finishOffers .none else t
  | _ => s)

/-- The claims of a heard VERDICT (R143). -/
def heardClaims (id lane : Byte) (es : List VerdictEntry) : List Claim :=
  es.map (fun e => ⟨e.serial, lane.toNat, e.share.toNat, id, claimFrames⟩)

/-- A heard VERDICT (R66, R143, R146): the named records are reset, the claims are made, and HOLDING adjudications are
contested. -/
def State.takeVerdict (s : State) (id lane : Byte) (es : List VerdictEntry) : State :=
  let s := s.withSightings (resetRecords s.stamp.next (es.map VerdictEntry.serial) s.sightings)
  s.withAdj { s.adj with
    claims := addClaims (heardClaims id lane es) s.adj.claims
    list := s.adj.list.map (fun a => a.contest lane.toNat es) }

/-- RECEIVE_VERDICT (R66, R143, R146). -/
def execReceiveVerdict (s : State) : Answer :=
  .next (match s.incoming with
  | some (p, .verdict id lane _ _ es) => (s.takeOther p).takeVerdict id lane es
  | _ => s)

/-- RECEIVE_SETTLEMENT (R153 to R155). -/
def execReceiveSettlement (s : State) : Answer :=
  .next (match s.incoming with
  | some (p, .settlement _ _ _ _ es) =>
    let t := s.takeOther p
    t.withCarried (applySettlement t.settings.grace es t.carried)
  | _ => s)

/-- The reported latch of an ALARM of the west neighbour for its own lane (R117). -/
def State.takeAlarm (s : State) (sender : Nat) (lane : Byte) (c : AlarmClass) (acknowledged : Bool) : State :=
  if s.fromWest sender && lane.toNat == sender then
    s.withNeighbours { s.neighbours with
      west := { s.neighbours.west with latchClass := c, latchAcknowledged := acknowledged } }
  else s

/-- RECEIVE_ALARM (R117). -/
def execReceiveAlarm (s : State) : Answer :=
  .next (match s.incoming with
  | some (p, .alarm lane c _ a) => (s.takeOther p).takeAlarm p lane c a
  | _ => s)

/-- Whether a heard ACK is an acknowledge (R162): for the own lane, from the partner or the desk station. -/
def State.takesAck (s : State) (sender : Nat) (lane : Byte) : Bool :=
  s.ownsLane && lane.toNat == s.position && (sender == s.position + 1 || sender == 0)

/-- RECEIVE_ACK (R162 to R167). -/
def execReceiveAck (s : State) : Answer :=
  .next (match s.incoming with
  | some (p, .ack lane) =>
    let t := s.takeOther p
    if t.takesAck p lane then t.acknowledge.finishOffers .none else t
  | _ => s)

/-- RECEIVE_JOURNAL_CALL (R174): answered when the target is this position. -/
def execReceiveJournalCall (s : State) : Answer :=
  .next (match s.incoming with
  | some (p, .journalCall target index) =>
    let t := s.takeOther p
    if target.toNat = t.position then (t.answerJournal index).finishOffers .none else t
  | _ => s)

/-- RECEIVE_JOURNAL (R106): heard by the neighbour table only. -/
def execReceiveJournal (s : State) : Answer :=
  .next (match s.incoming with
  | some (p, .journal _ _) => s.takeOther p
  | _ => s)

end Sys2Proof.Machine
end

