-- ==== Sys2Proof/Machine/Dispatch.lean ====
section
/-! DEFINITION. One arm for each command of the table, each a call of its meaning. -/

namespace Sys2Proof.Machine

/-- The effect of a command on everything but the queue of commands. -/
def exec (i : Instr) (s : State) : Host.Outcome State Fault Refusal :=
  match i with
  | .powerOnReset => Sys2Proof.Machine.execPowerOnReset s
  | .serviceReset => Sys2Proof.Machine.execServiceReset s
  | .resetEnd => Sys2Proof.Machine.execResetEnd s
  | .strapsSample pins rowEndLow => Sys2Proof.Machine.execStrapsSample pins rowEndLow s
  | .configTransferComplete wait bytes => Sys2Proof.Machine.execConfigTransferComplete wait bytes s
  | .configNoResponse cause => Sys2Proof.Machine.execConfigNoResponse cause s
  | .supplyHold wait => Sys2Proof.Machine.execSupplyHold wait s
  | .holdResume => Sys2Proof.Machine.execHoldResume s
  | .listeningExpiry => Sys2Proof.Machine.execListeningExpiry s
  | .frameStart view => Sys2Proof.Machine.execFrameStart view s
  | .markSend => Sys2Proof.Machine.execMarkSend s
  | .markAbandon => Sys2Proof.Machine.execMarkAbandon s
  | .breakReleaseTimeout => Sys2Proof.Machine.execBreakReleaseTimeout s
  | .transmitWindowEnd => Sys2Proof.Machine.execTransmitWindowEnd s
  | .slotEnd slot westEnvelopes eastEnvelopes westBits eastBits => Sys2Proof.Machine.execSlotEnd slot westEnvelopes eastEnvelopes westBits eastBits s
  | .coilCheck westReading eastReading => Sys2Proof.Machine.execCoilCheck westReading eastReading s
  | .recordFade ties => Sys2Proof.Machine.execRecordFade ties s
  | .recordAgeFree => Sys2Proof.Machine.execRecordAgeFree s
  | .strayMark => Sys2Proof.Machine.execStrayMark s
  | .filterTick innerBroken outerBroken ackLow serviceLow order => Sys2Proof.Machine.execFilterTick innerBroken outerBroken ackLow serviceLow order s
  | .beamStuck => Sys2Proof.Machine.execBeamStuck s
  | .breakRecognized spell => Sys2Proof.Machine.execBreakRecognized spell s
  | .quietEnd => Sys2Proof.Machine.execQuietEnd s
  | .framingError lost => Sys2Proof.Machine.execFramingError lost s
  | .receiverIdleTimeout => Sys2Proof.Machine.execReceiverIdleTimeout s
  | .noticeStart => Sys2Proof.Machine.execNoticeStart s
  | .collision bit => Sys2Proof.Machine.execCollision bit s
  | .noticeSent => Sys2Proof.Machine.execNoticeSent s
  | .noticeInvalid => Sys2Proof.Machine.execNoticeInvalid s
  | .receiveCadence => Sys2Proof.Machine.execReceiveCadence s
  | .receiveStatus => Sys2Proof.Machine.execReceiveStatus s
  | .receiveCall => Sys2Proof.Machine.execReceiveCall s
  | .receiveEvidence => Sys2Proof.Machine.execReceiveEvidence s
  | .evidenceDeadline ties => Sys2Proof.Machine.execEvidenceDeadline ties s
  | .receiveVerdict => Sys2Proof.Machine.execReceiveVerdict s
  | .holdExpiry ties => Sys2Proof.Machine.execHoldExpiry ties s
  | .receiveSettlement => Sys2Proof.Machine.execReceiveSettlement s
  | .receiveAlarm => Sys2Proof.Machine.execReceiveAlarm s
  | .receiveAck => Sys2Proof.Machine.execReceiveAck s
  | .receiveJournalCall => Sys2Proof.Machine.execReceiveJournalCall s
  | .receiveJournal => Sys2Proof.Machine.execReceiveJournal s
  | .neighbourAbsent => Sys2Proof.Machine.execNeighbourAbsent s
  | .lineSilent => Sys2Proof.Machine.execLineSilent s
  | .clashClear => Sys2Proof.Machine.execClashClear s
  | .claimExpiry => Sys2Proof.Machine.execClaimExpiry s
  | .carriedInExpiry => Sys2Proof.Machine.execCarriedInExpiry s
  | .characterReceived wait levels stop => Sys2Proof.Machine.execCharacterReceived wait levels stop s

end Sys2Proof.Machine
end

