-- ==== Sys2Proof/Machine/Tag.lean ====
section
/-! DEFINITION. The tag's side of the air interface, as far as the pedestal's behaviour depends on it (R34 to R37). The tag
is not part of the state; what it sends arrives with SLOT_END. -/

namespace Sys2Proof.Machine.Tag

/-- The carrier of a running frame of this key in the ticks of the frame, driven from its start offset (R22): what a tag hears of it. -/
def frameDrive (key : BitVec 4) (start t : Nat) : Bool := decide (start ≤ t) && carrierPattern key t

/-- Two drives that overlap: there is carrier when either carries it (R34). -/
def overlap (a b : Nat → Bool) (t : Nat) : Bool := a t || b t

/-- The ticks without carrier that a tag waits for before the next carrier starts its cell 0 (R34). -/
def restGap : Nat := 32

/-- The start of the tag's cell 0 among the `ticks` ticks from `t` on: the first tick of carrier that follows at least 32 ticks without
carrier, `silent` of which have passed before `t` (R34). A shorter gap starts nothing. -/
def cellZeroFrom (carrier : Nat → Bool) : (ticks t silent : Nat) → Option Nat
  | 0, _, _ => none
  | ticks + 1, t, silent =>
    if carrier t then
      if restGap ≤ silent then some t else cellZeroFrom carrier ticks (t + 1) 0
    else cellZeroFrom carrier ticks (t + 1) (silent + 1)

/-- A cell reads 1 when carrier is present in its last 3 ticks and 0 when it is absent through them (R34). `carrier t` is
whether there is carrier `t` ticks after the start of the tag's cell 0. -/
def cellReads (carrier : Nat → Bool) (cell : Nat) : Bool :=
  carrier (8 * cell + 5) || carrier (8 * cell + 6) || carrier (8 * cell + 7)

/-- The key the tag reads: four cells, the first the highest (R34). -/
def readKey (carrier : Nat → Bool) : BitVec 4 :=
  BitVec.ofBool (cellReads carrier 0) ++ (BitVec.ofBool (cellReads carrier 1) ++
    (BitVec.ofBool (cellReads carrier 2) ++ BitVec.ofBool (cellReads carrier 3) : BitVec 2) : BitVec 3)

/-- The tag replies only after carrier for at least 160 ticks of the window (R35). -/
def charged (carrierTicks : Nat) : Bool := 160 ≤ carrierTicks

/-- The key read from the carrier of `ticks` ticks, with `silent` ticks without carrier before them; none when no cell 0 starts (R34). -/
def keyRead (carrier : Nat → Bool) (ticks silent : Nat) : Option (BitVec 4) :=
  (cellZeroFrom carrier ticks 0 silent).map (fun start => readKey (fun t => carrier (start + t)))

/-- The ticks of carrier in the window that began at the tag's cell 0 (R35). -/
def chargeFrom (carrier : Nat → Bool) (ticks start : Nat) : Nat := ((List.range' start (ticks - start)).filter carrier).length

/-- s0: the serial modulo 16 (R35). -/
def s0 (serial : Serial) : Nat := serial.toNat % 16

/-- s1: the serial div 16, modulo 16, with its lowest bit forced to 1 (R35). -/
def s1 (serial : Serial) : Nat := serial.toNat / 16 % 16 / 2 * 2 + 1

/-- The reply slot `(s0 + key × s1) mod 16` (R35). -/
def slot (serial : Serial) (key : BitVec 4) : Nat := (s0 serial + key.toNat * s1 serial) % 16

/-- The status code: 6h unissued, 9h issued (R37). -/
def statusCode (unissued : Bool) : BitVec 4 := if unissued then 6 else 9

/-- The 48-bit reply word: serial, status code, key echo, CRC-8 over the five bytes before it (R36, Table 3-1). -/
def word (serial : Serial) (unissued : Bool) (key : BitVec 4) : BitVec 48 :=
  let statusEcho : Byte := statusCode unissued ++ key
  serial ++ (statusEcho ++ crc8 (be32 serial ++ [statusEcho]) : BitVec 16)

/-- The 64 bits sent: the lead-in, then the reply word, highest bit first (R36). -/
def transmission (serial : Serial) (unissued : Bool) (key : BitVec 4) : List Bool :=
  leadIn ++ bitsOf (word serial unissued key)

/-- The reply of a tag to the carrier it hears: its slot and its word, with the key it has read; none when no window began or it got
too little charge (R34 to R36). -/
def reply (serial : Serial) (unissued : Bool) (carrier : Nat → Bool) (ticks silent : Nat) : Option (Nat × BitVec 48) :=
  (cellZeroFrom carrier ticks 0 silent).bind (fun start =>
    let key := readKey (fun t => carrier (start + t))
    if charged (chargeFrom carrier ticks start) then some (slot serial key, word serial unissued key) else none)

/-- The first tick of the reply in the ticks of the pedestal's slot, with carrier ending `late` ticks after tick 319 and the
tag's recovery `recovery` (R36, Table 3-2): the tag's slot begins `recovery` ticks after the carrier's end and the word 4 ticks
later. -/
def replyBegin (settle recovery late : Int) : Int := recovery + late + 4 - settle

/-- Whether the 8 ticks of the reply lie in the capture, slot ticks 2..15 (R37). -/
def captured (settle recovery late : Int) : Bool :=
  2 ≤ replyBegin settle recovery late && replyBegin settle recovery late + 7 ≤ 15

end Sys2Proof.Machine.Tag
end

