-- ==== Sys2Proof/Safety.lean ====
section
/-! DEFINITION. The terms the statements use: what "nothing else changes" means, and what the spec says of every state of the
part (capacities, modes that agree, the lane monitor's states, the records, the latch and the journal). -/

namespace Sys2Proof.Machine

/-! ### Frames -/

/-- The blocks of the state. -/
inductive Block where
  | cadence
  | field
  | sampler
  | sightings
  | lane
  | line
  | neighbours
  | adj
  | carried
  | alarm
  | startup
  deriving DecidableEq, Repr

/-- The block is the same in both states. -/
def Block.same : Block → State → State → Prop
  | .cadence, s, t => t.cadence = s.cadence
  | .field, s, t => t.field = s.field
  | .sampler, s, t => t.sampler = s.sampler
  | .sightings, s, t => t.sightings = s.sightings
  | .lane, s, t => t.lane = s.lane
  | .line, s, t => t.line = s.line
  | .neighbours, s, t => t.neighbours = s.neighbours
  | .adj, s, t => t.adj = s.adj
  | .carried, s, t => t.carried = s.carried
  | .alarm, s, t => t.alarm = s.alarm
  | .startup, s, t => t.startup = s.startup

/-- Every block but the named ones is the same in both states, and the same commands wait. -/
structure SameBut (s : State) (changed : List Block) (t : State) : Prop where
  pending : t.pending = s.pending
  blocks : ∀ b : Block, b ∉ changed → b.same s t

/-- The blocks a notice heard from another station may change before its kind is looked at (R12, R104, R117, R121). -/
def heard : List Block := [.cadence, .line, .neighbours, .adj]

/-- The blocks a frame start may change (R2). -/
def atFrameStart : List Block := [.cadence, .field, .sightings, .lane, .line, .neighbours, .adj, .carried, .alarm]

/-- The blocks that a command may change; every other block it leaves as it was. -/
def mayChange : Instr → List Block
  | .powerOnReset => .startup :: .sampler :: atFrameStart
  | .serviceReset => .startup :: .sampler :: atFrameStart
  | .resetEnd => [.startup, .cadence]
  | .strapsSample _ _ => [.startup, .cadence]
  | .configTransferComplete _ _ => [.cadence, .line, .startup]
  | .configNoResponse _ => [.cadence, .line, .startup]
  | .supplyHold _ => [.cadence, .field, .sightings, .line, .adj, .startup]
  | .holdResume => [.cadence, .lane, .neighbours, .line, .startup]
  | .listeningExpiry => .startup :: atFrameStart
  | .frameStart _ => atFrameStart
  | .markSend => [.cadence, .line, .adj, .sightings]
  | .markAbandon => [.cadence]
  | .breakReleaseTimeout => [.cadence, .line]
  | .transmitWindowEnd => [.cadence, .field]
  | .slotEnd _ _ _ _ _ => [.cadence, .sightings]
  | .coilCheck _ _ => [.cadence, .sampler]
  | .recordFade _ => [.line, .adj, .sightings, .carried, .alarm]
  | .recordAgeFree => [.sightings]
  | .strayMark => [.sightings]
  | .filterTick _ _ _ _ _ => [.cadence, .lane, .startup, .field, .line, .adj, .sightings, .carried, .alarm]
  | .beamStuck => [.lane]
  | .breakRecognized _ => [.cadence, .line]
  | .quietEnd => [.cadence, .line]
  | .framingError _ => [.cadence, .line]
  | .receiverIdleTimeout => [.cadence, .line]
  | .noticeStart => [.cadence, .line]
  | .collision _ => [.cadence, .line, .adj, .sightings]
  | .noticeSent => [.cadence, .line, .adj, .sightings]
  | .noticeInvalid => [.cadence, .line]
  | .receiveCadence => .startup :: atFrameStart
  | .receiveStatus => heard
  | .receiveCall => .sightings :: heard
  | .receiveEvidence => .sightings :: heard
  | .evidenceDeadline _ => [.line, .adj, .sightings]
  | .receiveVerdict => .sightings :: heard
  | .holdExpiry _ => [.line, .adj, .sightings, .carried, .alarm]
  | .receiveSettlement => .carried :: heard
  | .receiveAlarm => heard
  | .receiveAck => .alarm :: .sightings :: heard
  | .receiveJournalCall => .alarm :: .sightings :: heard
  | .receiveJournal => heard
  | .neighbourAbsent => [.neighbours]
  | .lineSilent => [.neighbours]
  | .clashClear => [.neighbours]
  | .claimExpiry => [.adj]
  | .carriedInExpiry => [.carried]
  | .characterReceived _ _ _ => [.cadence, .line]

/-- The outgoing queue takes `n` more offers at once: the transmitter is not OFF (R109), the queue does not overflow (R111),
and no drop report waits. -/
structure State.HasRoom (s : State) (n : Nat) : Prop where
  awake : s.line.tx ≠ .off
  fits : s.line.queue.length + n ≤ 12
  quiet : s.line.dropped = []

/-- What `t` holds after the adjudication of `s` with the call id of `w` has been weighed with the outcome `w` (R136, R141, R142,
R65): with no candidate attributed it has left the list and nothing else has changed; otherwise it is HOLDING in its place, its
VERDICT notices stand at the end of the queue, its claims are made, and the records of its attributed serials are reset. -/
structure WeighedTo (s : State) (ties : Ties) (w : Adjudication) (t : State) : Prop where
  ended : w.attributed = [] →
    t.adj = { s.adj with list := s.adj.list.filter (fun b => b.callId ≠ w.callId) } ∧ t.line.queue = s.line.queue ∧
      t.sightings = s.sightings
  given : w.attributed ≠ [] →
    t.adj.list = s.adj.list.map (fun b => if b.callId = w.callId then w else b) ∧
      t.adj.claims = addClaims (w.attributed.map (fun c =>
        ⟨c.serial, w.lane, c.share.getD 0, w.callId, if ties.claims then 9 else 10⟩)) s.adj.claims ∧
      t.adj.nextCall = s.adj.nextCall ∧
      t.line.queue = s.line.queue ++ w.verdicts.map Queued.fresh ∧
      t.sightings = resetRecords (if ties.sightings then s.stamp else s.stamp.next) (w.attributed.map Candidate.serial)
        s.sightings

/-- What `t` holds after the adjudication `a`, which is not in the list any more, has settled in `s`: its SETTLEMENT notices stand at
the end of the queue, the carried-in list takes its entries, the journal gains its standing ALARM and REPEAT entries and keeps the
newest 32, and with an ALARM standing the latch is set or raised and an ALARM notice follows (R148, R153, R158, R160, R161, R173). -/
structure SettledTo (s : State) (ties : Ties) (a : Adjudication) (t : State) : Prop where
  carried : t.carried =
    applySettlement (if ties.carriedIn then s.settings.grace - 1 else s.settings.grace) a.settled s.carried
  journal : s.alarm.journal.length ≤ 32 → ∀ new : List JournalEntry,
    new = (a.standing.filter Candidate.alarms).map (fun c => ⟨c.serial, a.lane, c.kind.getD .alarm,
      if c.watched then .watched else .unissued, s.stamp, if ties.journal then 1 else 0, false⟩) →
    t.alarm.journal = (s.alarm.journal ++ new).drop (s.alarm.journal.length + new.length - 32)
  cursor : t.alarm.cursor = s.alarm.cursor
  left : (∀ c ∈ a.candidates, c.kind = some .alarm → c.yielded = true) →
    t.alarm.latch = s.alarm.latch ∧ t.line.queue = s.line.queue ++ a.settlements.map Queued.fresh
  raised : (∃ c ∈ a.candidates, c.kind = some .alarm ∧ c.yielded = false) →
    ∀ (cls held : AlarmClass) (change : LatchChange),
      cls = (if ∃ c ∈ a.candidates, c.kind = some .alarm ∧ c.yielded = false ∧ c.watched = true then .watched
        else .unissued) →
      held = (if s.alarm.latch.cls = .watched then .watched else cls) →
      change = (if s.alarm.latch.cls = .unissued ∧ cls = .watched then .classRaised else .raised) →
      t.alarm.latch = ⟨held, false, false⟩ ∧
        t.line.queue = s.line.queue ++ (a.settlements ++ [Notice.alarm s.laneByte held change false]).map Queued.fresh

/-- What `t` holds after an opening in `s` has been weighed at once with the outcome `w` (R128, R129, R141, R142): with no candidate
attributed only the call ids have moved on; otherwise the VERDICT is given, and `w` joins the list as HOLDING; at a full list the
oldest HOLDING adjudication settles to make room, and with none HOLDING `w` settles itself and does not join. -/
structure WeighedAtOnce (s : State) (ties : Ties) (w : Adjudication) (t : State) : Prop where
  ended : w.attributed = [] →
    t.adj = { s.adj with nextCall := s.adj.nextCall + 1 } ∧ t.line.queue = s.line.queue ∧ t.sightings = s.sightings ∧
      t.carried = s.carried ∧ t.alarm = s.alarm
  given : w.attributed ≠ [] →
    t.adj.nextCall = s.adj.nextCall + 1 ∧
      t.adj.claims = addClaims (w.attributed.map (fun c =>
        ⟨c.serial, w.lane, c.share.getD 0, w.callId, if ties.claims then 9 else 10⟩)) s.adj.claims ∧
      t.sightings = resetRecords (if ties.sightings then s.stamp else s.stamp.next) (w.attributed.map Candidate.serial)
        s.sightings
  joined : w.attributed ≠ [] → s.adj.list.length < 4 →
    t.adj.list = s.adj.list ++ [w] ∧ t.line.queue = s.line.queue ++ w.verdicts.map Queued.fresh ∧ t.carried = s.carried ∧
      t.alarm = s.alarm
  displacing : w.attributed ≠ [] → 4 ≤ s.adj.list.length → ∀ (pre post : List Adjudication) (old : Adjudication),
    s.adj.list = pre ++ old :: post → (∀ b ∈ pre, b.state ≠ .holding) → old.state = .holding →
    (∀ b ∈ pre ++ post, b.callId ≠ old.callId) →
    t.adj.list = pre ++ post ++ [w] ∧
      SettledTo (s.withLine { s.line with queue := s.line.queue ++ w.verdicts.map Queued.fresh }) ties old t
  alone : w.attributed ≠ [] → 4 ≤ s.adj.list.length → (∀ b ∈ s.adj.list, b.state ≠ .holding) →
    t.adj.list = s.adj.list ∧
      SettledTo (s.withLine { s.line with queue := s.line.queue ++ w.verdicts.map Queued.fresh }) ties w t

/-- What `t` holds after the new adjudication `x` has been opened in `s` (R125, R128, R129): with the partner PRESENT, its west face not
reported faulted and a place in the list, it is COLLECTING there and its CALL stands at the end of the queue; otherwise it is weighed
at once. -/
structure OpenedTo (s : State) (ties : Ties) (x : Adjudication) (t : State) : Prop where
  line : t.line = { s.line with queue := t.line.queue }
  called : s.neighbours.east.presence = .present → s.neighbours.east.westFault ≠ some true → s.adj.list.length < 4 →
    t.adj = { s.adj with nextCall := s.adj.nextCall + 1, list := s.adj.list ++ [x] } ∧
      t.line.queue = s.line.queue ++
        [⟨.call x.callId (BitVec.ofNat 8 x.lane) x.windowStart x.windowEnd, 0, false, false⟩] ∧
      t.sightings = s.sightings ∧ t.carried = s.carried ∧ t.alarm = s.alarm
  weighed : s.neighbours.east.presence ≠ .present ∨ s.neighbours.east.westFault = some true ∨ 4 ≤ s.adj.list.length →
    WeighedAtOnce s ties (s.scales.weigh x) t

/-- The new adjudication of a delivery with the window from `a` to `b` (R125 to R127). -/
def State.opening (s : State) (trigger : Trigger) (d : Direction) (a b : Stamp) : Adjudication :=
  ⟨s.adj.nextCall, s.position, trigger, d, a, b, .collecting, .nothing, [], none,
    (keepLargest Record.eastSum 24 (s.sightings.filter (fun r =>
      !r.isStray && 0 < r.reads && 0 ≤ stampDiff r.firstStamp b && 0 ≤ stampDiff a r.lastStamp))).map (fun r =>
        ⟨r.serial, r.unissued || r.watched, r.watched, r.westSum, r.eastSum, 0, 0, r.reads, none, none, false⟩),
    none, none⟩

/-- The command that takes a notice of each kind from another station (R106, Table 6-5). -/
def receiveOf : Notice → Instr
  | .cadence .. => .receiveCadence
  | .status .. => .receiveStatus
  | .call .. => .receiveCall
  | .evidence .. => .receiveEvidence
  | .verdict .. => .receiveVerdict
  | .settlement .. => .receiveSettlement
  | .alarm .. => .receiveAlarm
  | .ack .. => .receiveAck
  | .journalCall .. => .receiveJournalCall
  | .journal .. => .receiveJournal

/-- Whether a notice goes with the adjudications that are abandoned: EVIDENCE (R132), and the CALL and VERDICT notices of those in the
list (R149). -/
def State.withdraws (s : State) : Notice → Bool
  | .evidence .. => true
  | .call id _ _ _ => s.adj.list.any (fun a => a.callId == id)
  | .verdict id _ _ _ _ => s.adj.list.any (fun a => a.callId == id)
  | _ => false

/-- The queue after every adjudication has been abandoned: those notices are gone, but one in transmission stays, to be removed at its
first collision (R109, R132, R149). -/
def State.queueWithdrawn (s : State) : List Queued :=
  s.line.queue.filterMap (fun q =>
    if s.withdraws q.notice then (if q.inTransmission then some { q with withdrawn := true } else none) else some q)

/-- What `t` holds after the FADE triggers of the fading records `reports` have been delivered one after another from `s` (R58, R87, R126):
under a clash a trigger is discarded (R122), and otherwise an adjudication opens for it over the record's own stamps, its start clamped
to 500 frames before its end and not later than it. -/
def FadesTo (ties : Ties) : State → List Record → State → Prop
  | s, [], t => t = s
  | s, r :: rest, t => ∃ u, FadesTo ties u rest t ∧ SameBut s [.sightings, .adj, .line, .carried, .alarm] u ∧
      (s.neighbours.clash = true → u = s) ∧
      (s.neighbours.clash = false → s.HasRoom 7 → (∀ b ∈ s.adj.list, b.candidates.length ≤ 24) →
        OpenedTo s ties (s.opening .fade .undirected
          (if 500 < stampDiff r.firstStamp r.lastStamp then r.lastStamp.before 500
            else if stampDiff r.firstStamp r.lastStamp < 0 then r.lastStamp else r.firstStamp) r.lastStamp) u)

/-- The state after a return-to-CLEAR report (R166): in CLEARING mode a latch that waits for the lane is NONE, and CLEARED stands at the
end of the queue. -/
def State.latchCleared (s : State) : State :=
  if s.settings.latchMode = .clearing ∧ s.alarm.latch.clearPending = true then
    (s.withAlarm { s.alarm with latch := ⟨.noAlarm, false, false⟩ }).withLine
      { s.line with queue := s.line.queue ++ [⟨.alarm s.laneByte .noAlarm .cleared false, 0, false, false⟩] }
  else s

/-- The cadence unit but for its clock and its offset, which time moves. -/
def Cadence.sameButTime (c d : Cadence) : Prop := d = { c with clock := d.clock, offset := d.offset }

/-! ### What holds of every state -/

/-- The lists hold no more than the manual allows (R46, R111, R125, R143, R151, R173). -/
structure State.WithinCapacity (s : State) : Prop where
  records : s.sightings.length ≤ 48
  queue : s.line.queue.length ≤ 12
  adjudications : s.adj.list.length ≤ 4
  candidates : ∀ a ∈ s.adj.list, a.candidates.length ≤ 24
  claims : s.adj.claims.length ≤ 32
  carried : s.carried.length ≤ 32
  journal : s.alarm.journal.length ≤ 32

/-- No two records, no two candidates of one adjudication and no two carried-in entries have the same serial, and no two claims the same
serial and lane (R46, R125, R143, R151). -/
structure State.Distinct (s : State) : Prop where
  records : s.sightings.Pairwise (fun a b => a.serial ≠ b.serial)
  candidates : ∀ a ∈ s.adj.list, a.candidates.Pairwise (fun b c => b.serial ≠ c.serial)
  claims : s.adj.claims.Pairwise (fun a b => ¬(a.serial = b.serial ∧ a.lane = b.lane))
  carried : s.carried.Pairwise (fun a b => a.serial ≠ b.serial)

/-- The states in which the part is on the line (R113, Table 6-3, Table 6-4). -/
def StartState.onLine : StartState → Bool
  | .listening => true
  | .joined => true
  | .reset => false
  | .straps => false
  | .config => false
  | .strapFault => false
  | .hold => false

/-- The start-up block and the cadence unit agree on LISTENING and JOINED (R181). Off the line the transmitter and the receiver are OFF
and the queue is empty (R101, R109, R113). While not JOINED the field is STOPPED and not driven, the frame output line is low and
there is no mark (R6, R7, R9, R19). A driven field is RUNNING (R22). The frame index is one of 25 (R1). The next filter tick is a multiple of 32 (R3). -/
structure State.ModesAgree (s : State) : Prop where
  joined : s.startup.state = .joined ↔ s.cadence.join = .joined
  listening : s.startup.state = .listening ↔ s.cadence.join = .listening
  offLine : s.startup.state.onLine = false → s.line.tx = .off ∧ s.line.rx = .off ∧ s.line.queue = []
  notJoined : s.cadence.join ≠ .joined →
    s.field.running = false ∧ s.field.drive = false ∧ s.cadence.frameOut = false ∧ s.cadence.mark = .absent
  driven : s.field.drive = true → s.field.running = true
  index : s.cadence.frameIdx < 25
  filter : s.cadence.nextFilter % 32 = 0

/-- The filtered states of INNER and OUTER that a passage state implies (Table 5-1): whether INNER is broken, and OUTER. -/
def Passage.beams : Passage → Option (Bool × Bool)
  | .clear => some (false, false)
  | .outOpening => some (true, false)
  | .outSpanned => some (true, true)
  | .outClosing => some (false, true)
  | .inOpening => some (false, true)
  | .inSpanned => some (true, true)
  | .inClosing => some (true, false)
  | .bothSpanned => some (true, true)
  | .waitClear => none
  | .tagOnly => none

/-- Table 5-2, with the beams told by their filtered states after the tick (R73 to R77): the state before, whether INNER and OUTER are
BROKEN after a tick that changed at least one of them, the state after, and the direction of a completed passage. -/
def passageMoves : List (Passage × Bool × Bool × Passage × Option Direction) :=
  [(.clear, true, false, .outOpening, none), (.clear, false, true, .inOpening, none), (.clear, true, true, .bothSpanned, none),
   (.outOpening, false, false, .clear, none), (.outOpening, true, true, .outSpanned, none),
   (.outOpening, false, true, .outClosing, none),
   (.outSpanned, false, true, .outClosing, none), (.outSpanned, true, false, .outOpening, none),
   (.outSpanned, false, false, .clear, some .undirected),
   (.outClosing, true, true, .outSpanned, none), (.outClosing, false, false, .clear, some .outbound),
   (.outClosing, true, false, .outOpening, none),
   (.inOpening, true, true, .inSpanned, none), (.inOpening, false, false, .clear, none),
   (.inOpening, true, false, .inClosing, none),
   (.inSpanned, false, true, .inOpening, none), (.inSpanned, true, false, .inClosing, none),
   (.inSpanned, false, false, .clear, some .undirected),
   (.inClosing, false, false, .clear, some .inbound), (.inClosing, true, true, .inSpanned, none),
   (.inClosing, false, true, .inOpening, none),
   (.bothSpanned, false, true, .outClosing, none), (.bothSpanned, true, false, .inClosing, none),
   (.bothSpanned, false, false, .clear, some .undirected)]

/-- The beam after a filter tick with the sample `raw`: its filtered state changes at the second of two samples that differ from it, the
break duration is 0 at a change, and a beam filtered CLEAR is not STUCK any more (R71, R85, R88). -/
structure BeamSampled (b : Beam) (raw : Bool) (b' : Beam) : Prop where
  agrees : raw = b.broken → b' = { b with differ := false }
  differs : raw ≠ b.broken → b.differ = false → b' = { b with differ := true }
  broken : raw = true → b.broken = false → b.differ = true → b' = ⟨true, false, 0, b.stuck⟩
  cleared : raw = false → b.broken = true → b.differ = true → b' = ⟨false, false, 0, false⟩

/-- The lane monitor `m` after a filter tick of `l` with these samples, on a pedestal that is no end pedestal (R71 to R79, R82, R83, R88):
the first tick takes the samples themselves; later ones filter them, move the passage state by Table 5-2, wait in WAIT_CLEAR for both
beams, and leave TAG_ONLY when no beam is STUCK any more. The start stamp is taken at a departure from CLEAR, kept in progress, and
dropped on the return; the clear run becomes 0 at a departure and is no further changed. -/
structure LaneSampled (l : LaneMonitor) (now : Stamp) (inner outer : Bool) (m : LaneMonitor) : Prop where
  started : m.started = true
  first : l.started = false → m = ⟨true, ⟨inner, false, 0, false⟩, ⟨outer, false, 0, false⟩,
    if inner = true ∨ outer = true then .waitClear else .clear, none, l.clearRun⟩
  innerBeam : l.started = true → BeamSampled l.inner inner m.inner
  outerBeam : l.started = true → BeamSampled l.outer outer m.outer
  still : l.started = true → l.passage ≠ .waitClear → m.inner.broken = l.inner.broken → m.outer.broken = l.outer.broken →
    m.passage = l.passage ∧ m.startStamp = l.startStamp ∧ m.clearRun = l.clearRun
  moved : l.started = true → (m.inner.broken, m.outer.broken) ≠ (l.inner.broken, l.outer.broken) →
    ∀ (q : Passage) (d : Option Direction), (l.passage, m.inner.broken, m.outer.broken, q, d) ∈ passageMoves →
      m.passage = q ∧
        m.startStamp = (if q = .clear then none else if l.passage = .clear then some now else l.startStamp) ∧
        m.clearRun = if l.passage = .clear then 0 else l.clearRun
  waits : l.started = true → l.passage = .waitClear →
    m.passage = (if m.inner.broken = true ∨ m.outer.broken = true then .waitClear else .clear) ∧ m.startStamp = none ∧
      m.clearRun = l.clearRun
  tagOnly : l.started = true → l.passage = .tagOnly →
    m.passage = (if m.inner.stuck = true ∨ m.outer.stuck = true then .tagOnly
      else if m.inner.broken = true ∨ m.outer.broken = true then .waitClear else .clear) ∧ m.startStamp = none ∧
      m.clearRun = l.clearRun

/-- The lane monitor's states: the beams are those of Table 5-1; a start stamp is held in the states in progress only; the
clear run is 0 in every state but CLEAR (R83), and before the first filter tick (R91); the lane is in TAG_ONLY just while a beam is STUCK (R86, R88), and a STUCK beam
is broken; the counts stay in their ranges (R83, R85). -/
structure LaneMonitor.Sound (l : LaneMonitor) : Prop where
  beams : ∀ b, l.passage.beams = some b → (l.inner.broken, l.outer.broken) = b
  start : l.startStamp.isSome = l.passage.inProgress
  run : l.passage ≠ .clear → l.clearRun = 0
  unstarted : l.started = false → l.clearRun = 0
  runRange : l.clearRun ≤ 65535
  tagOnly : l.passage = .tagOnly ↔ (l.inner.stuck = true ∨ l.outer.stuck = true)
  innerStuck : l.inner.stuck = true → l.inner.broken = true
  outerStuck : l.outer.stuck = true → l.outer.broken = true
  innerRange : l.inner.duration ≤ 1500
  outerRange : l.outer.duration ≤ 1500

/-- A record in range: sums and reads (R55), both sums 0 whenever the reads are 0 (R55), and a STRAY record's reads 0 (R63). -/
structure Record.Sound (r : Record) : Prop where
  west : r.westSum ≤ 16777215
  east : r.eastSum ≤ 16777215
  reads : r.reads ≤ 65535
  unread : r.reads = 0 → r.westSum = 0 ∧ r.eastSum = 0
  stray : r.isStray = true → r.reads = 0

/-- The table: its records in range, no two of one serial (they are kept in order of serial), at most 16 of them STRAY (R46,
R55, R63). -/
structure TableSound (table : List Record) : Prop where
  records : ∀ r ∈ table, r.Sound
  order : table.Pairwise (fun a b => a.serial.toNat < b.serial.toNat)
  strays : strayCount table ≤ 16

/-- The alarm unit: while the latch is NONE it is neither acknowledged nor waiting to clear (R159); a journal entry is an ALARM
or a REPEAT with a class, its age in range (Table 10-3); at most 32 of them (R173), and the cursor is one of 32 (R174). -/
structure AlarmUnit.Sound (a : AlarmUnit) : Prop where
  unset : a.latch.cls = .noAlarm → a.latch.acknowledged = false ∧ a.latch.clearPending = false
  entries : ∀ e ∈ a.journal, (e.kind = .alarm ∨ e.kind = .repeated) ∧ e.cls ≠ .noAlarm ∧ e.age ≤ 65535
  journal : a.journal.length ≤ 32
  cursor : a.cursor ≤ 31

end Sys2Proof.Machine

namespace Sys2Proof

open Sys2Proof.Machine

/-! ### The bytes of a configuration image -/

/-- Watch entry bytes: serial, then enable (Table 11-2). -/
def WatchEntry.bytes (e : WatchEntry) : List Byte := be32 e.serial ++ [if e.enabled then 1 else 0]

/-- The bytes 0..53 of an image with these settings (Table 11-2). -/
def Settings.bytes (x : Settings) : List Byte :=
  [BitVec.ofNat 8 x.settle, BitVec.ofNat 8 x.noiseFloor, BitVec.ofNat 8 x.normalThreshold, BitVec.ofNat 8 x.soloThreshold] ++
    be16 (BitVec.ofNat 16 x.evidenceFloor) ++ be16 (BitVec.ofNat 16 x.strayAge) ++ [BitVec.ofNat 8 x.moveStep] ++
    be16 (BitVec.ofNat 16 x.holdOff) ++ be16 (BitVec.ofNat 16 x.grace) ++
    [(if x.latchMode = .latched then 1 else 0) + (if x.sounderEnable then 2 else 0)] ++ x.watch.flatMap WatchEntry.bytes

/-- The settings lie in the ranges of Table 11-2, with eight watch entries. -/
def Settings.inRange (x : Settings) : Prop :=
  8 ≤ x.settle ∧ x.settle ≤ 24 ∧ 8 ≤ x.noiseFloor ∧ x.noiseFloor ≤ 255 ∧ 128 ≤ x.normalThreshold ∧ x.normalThreshold ≤ 240 ∧
    128 ≤ x.soloThreshold ∧ x.soloThreshold ≤ 248 ∧ 256 ≤ x.evidenceFloor ∧ x.evidenceFloor ≤ 65535 ∧
    250 ≤ x.strayAge ∧ x.strayAge ≤ 3000 ∧ 16 ≤ x.moveStep ∧ x.moveStep ≤ 255 ∧ 50 ≤ x.holdOff ∧ x.holdOff ≤ 3000 ∧
    500 ≤ x.grace ∧ x.grace ≤ 15000 ∧ x.watch.length = 8

end Sys2Proof
end

