-- ==== Sys2Proof/Certificates/Slice0/Obligations.lean ====
section
/-! DEFINITION. The statements for the provers: one Prop for each entry of OBLIGATIONS.json. -/

section Statements

open Sys2Proof Sys2Proof.Machine

/-! ### The machine -/

/-- A step runs the command at the front of the queue on the state with the rest of the queue; on an empty queue nothing
happens (the model's choice, notes/assumptions/2.md). -/
def Obligations.StepRunsFrontCommand : Prop :=
  (∀ (c : Instr) (rest : List Instr) (s : State),
    step { s with pending := c :: rest } = exec c { s with pending := rest }) ∧
  ∀ s : State, s.pending = [] → step s = .next s

/-- Every command answers a next state, in which the same commands wait and only the blocks of `mayChange` may differ. -/
def Obligations.CommandsChangeOnlyTheirBlocks : Prop :=
  ∀ (c : Instr) (s : State), ∃ t, exec c s = .next t ∧ SameBut s (mayChange c) t

/-- A command whose event cannot occur in a state changes nothing (the model's choice, notes/assumptions/1.md). -/
def Obligations.AbsentEventsChangeNothing : Prop :=
  ∀ s : State,
    (s.startup.state ≠ .reset → exec .resetEnd s = .next s) ∧
    (s.startup.state ≠ .straps → ∀ pins low, exec (.strapsSample pins low) s = .next s) ∧
    (s.startup.state ≠ .config → ∀ wait bytes cause,
      exec (.configTransferComplete wait bytes) s = .next s ∧ exec (.configNoResponse cause) s = .next s) ∧
    (s.startup.state ≠ .hold → exec .holdResume s = .next s) ∧
    (s.cadence.join ≠ .listening → exec .listeningExpiry s = .next s) ∧
    (s.cadence.join ≠ .joined → ∀ view slot w e we ee wb eb,
      exec (.frameStart view) s = .next s ∧ exec .transmitWindowEnd s = .next s ∧
        exec (.slotEnd slot we ee wb eb) s = .next s ∧ exec (.coilCheck w e) s = .next s) ∧
    (∀ slot we ee wb eb, 16 ≤ slot ∨ slot < s.cadence.slotsEnded → exec (.slotEnd slot we ee wb eb) s = .next s) ∧
    (s.cadence.coilChecked = true ∨ s.cadence.frameIdx ≠ 12 → ∀ w e, exec (.coilCheck w e) s = .next s) ∧
    (s.cadence.mark ≠ .pending → (s.line.edges = [] → exec .markSend s = .next s) ∧ exec .markAbandon s = .next s) ∧
    (s.line.lowFrom ≠ none → s.line.edges = [] →
      exec .markSend s = .next s ∧ exec .noticeStart s = .next s ∧ exec .receiverIdleTimeout s = .next s) ∧
    (¬(s.line.tx = .brk ∧ s.line.sending = []) → exec .breakReleaseTimeout s = .next s) ∧
    (s.clockRuns = false → ∀ i o a v order, exec (.filterTick i o a v order) s = .next s) ∧
    (s.line.rx = .off → ∀ spell lost wait levels stop,
      exec (.breakRecognized spell) s = .next s ∧ exec (.framingError lost) s = .next s ∧
        exec (.characterReceived wait levels stop) s = .next s) ∧
    (s.line.quietFrom = none → exec .quietEnd s = .next s) ∧
    ((∀ bytes own, s.line.rx ≠ .assembling bytes own) →
      (s.line.edges = [] → exec .receiverIdleTimeout s = .next s) ∧ exec .noticeInvalid s = .next s) ∧
    (s.line.tx ≠ .waiting → s.line.edges = [] → exec .noticeStart s = .next s) ∧
    (s.line.tx = .sending ∨ (s.line.tx = .brk ∧ s.line.sending ≠ []) → s.line.edges = [] →
      exec .receiverIdleTimeout s = .next s) ∧
    (s.line.tx ≠ .sending → (s.line.tx = .brk → s.line.sending = []) →
      exec .noticeSent s = .next s ∧ ∀ bit, exec (.collision bit) s = .next s) ∧
    (∀ bit, s.line.sentLevel bit ≠ some true → exec (.collision bit) s = .next s) ∧
    (s.incoming = none → ∀ c ∈ [Instr.receiveCadence, .receiveStatus, .receiveCall, .receiveEvidence, .receiveVerdict,
      .receiveSettlement, .receiveAlarm, .receiveAck, .receiveJournalCall, .receiveJournal], exec c s = .next s)

/-- Time passes to a moment exactly, and to an offset within the frame exactly; the offset moves only while JOINED, and nothing
but the clock and the offset moves. The idle count is 0 while the line is low and runs again from the moment it returns high. From when
it runs after an edge, which of the waiting edges are taken, those before the end of the last character or break passed over, and
those less than `blind` before the end of a gap left waiting, are the model's choices (notes/assumptions/14.md). A part whose receiver is
OFF watches no edge (R1, R3, R96, R101). -/
def Obligations.TimeReachesTheMoment : Prop :=
  (∀ s : State, s.clockRuns = true →
    (∀ m, (s.toMoment m).cadence.clock = max s.cadence.clock m ∧ s.cadence.sameButTime (s.toMoment m).cadence ∧
      SameBut s [.cadence] (s.toMoment m)) ∧
    (∀ m, s.cadence.join ≠ .joined → (s.toMoment m).cadence.offset = s.cadence.offset) ∧
    ∀ o, s.cadence.join = .joined →
      (s.toOffset o).cadence.offset = max s.cadence.offset o ∧
        (s.toOffset o).freeRun = s.freeRun + (o - s.cadence.offset)) ∧
  (∀ (s : State) (gap blind : Nat), s.line.rx = .off ∨ s.line.edges = [] → s.readEdges gap blind = s) ∧
  (∀ (s : State) (gap blind : Nat) (old new : List Edge), s.line.rx ≠ .off → s.line.edges = old ++ new →
    (∀ e ∈ old, e.moment < s.line.idleFrom) → (∀ e ∈ new, s.line.idleFrom ≤ e.moment) →
    s.readEdges gap blind = s.takeEdges gap blind new) ∧
  ∀ (s : State) (gap blind : Nat) (e : Edge) (es : List Edge), s.clockRuns = true →
    s.takeEdges gap blind [] = s.withLine { s.line with edges := [] } ∧
    (s.line.lowFrom ≠ none ∨ e.moment + blind ≤ max s.cadence.clock (s.line.idleFrom + gap * 2048) →
      s.takeEdges gap blind (e :: es) = (s.takeEdge e).takeEdges gap blind es) ∧
    (s.line.lowFrom = none → max s.cadence.clock (s.line.idleFrom + gap * 2048) < e.moment + blind →
      s.takeEdges gap blind (e :: es) = s.withLine { s.line with edges := e :: es }) ∧
    SameBut s [.cadence, .line] (s.takeEdge e) ∧ (s.takeEdge e).cadence.clock = max s.cadence.clock e.moment ∧
    s.cadence.sameButTime (s.takeEdge e).cadence ∧
    (s.takeEdge e).line = { s.line with
      idleFrom := (s.takeEdge e).line.idleFrom
      lowFrom := (s.takeEdge e).line.lowFrom } ∧
    (e.high = false → ∀ n, ((s.takeEdge e).waitBits n).idleCount = 0) ∧
    (e.high = true → s.cadence.clock ≤ e.moment → s.line.idleFrom ≤ e.moment →
      ¬(s.line.tx = .sending ∨ (s.line.tx = .brk ∧ s.line.sending ≠ [])) →
      ∀ n, ((s.takeEdge e).waitBits n).idleCount = min 255 n)

/-! ### What every step keeps -/

/-- The bounded lists keep their bounds, and no list comes to hold two entries of one serial, nor the claims list two of one serial and
lane. The call ids of the adjudications stay distinct as long as the counter has not come round to an id still listed: a step opens at
most 48, one for each record that fades (R46, R111, R125, R135, R143, R151, R173). -/
def Obligations.CapacityKept : Prop :=
  (∀ s t : State, s.WithinCapacity → step s = .next t → t.WithinCapacity) ∧
  (∀ s t : State, s.Distinct → step s = .next t → t.Distinct) ∧
  ∀ s t : State, s.WithinCapacity → s.adj.list.Pairwise (fun a b => a.callId ≠ b.callId) →
    (∀ a ∈ s.adj.list, ∀ k : Nat, k < 48 → a.callId ≠ s.adj.nextCall + BitVec.ofNat 8 k) → step s = .next t →
    t.adj.list.Pairwise (fun a b => a.callId ≠ b.callId)

/-- The start-up block, the cadence unit, the row line and the field driver stay in agreement, and the next filter tick stays a
multiple of 32 (R1, R3, R6, R7, R9, R19, R22, R101, R109, R113, R181). -/
def Obligations.ModesKept : Prop := ∀ s t : State, s.ModesAgree → step s = .next t → t.ModesAgree

/-- The lane monitor stays in the states of Table 5-1 (R83, R85, R86, R88). -/
def Obligations.LaneSoundKept : Prop := ∀ s t : State, s.lane.Sound → step s = .next t → t.lane.Sound

/-- The sighting table keeps one record to a serial, its sums and reads in range and at most 16 STRAY records (R46, R55, R63). -/
def Obligations.TableSoundKept : Prop := ∀ s t : State, TableSound s.sightings → step s = .next t → TableSound t.sightings

/-- The latch that is NONE is neither acknowledged nor waiting to clear, and the journal and its cursor stay in range (R159, R173,
R174). -/
def Obligations.AlarmSoundKept : Prop := ∀ s t : State, s.alarm.Sound → step s = .next t → t.alarm.Sound

/-- The five invariants hold right after a power-on reset, and no list holds two entries of one serial. -/
def Obligations.ResetMeetsInvariants : Prop :=
  State.reset.WithinCapacity ∧ State.reset.Distinct ∧ State.reset.ModesAgree ∧ State.reset.lane.Sound ∧
    TableSound State.reset.sightings ∧ State.reset.alarm.Sound

/-! ### Bytes and bits -/

/-- Every well-formed notice, framed by a sender 0 to 9, is assembled as that notice from that sender, and the levels of each
character, sampled in the middles of its bit times, are heard as that character (R92, R93, R104, R107, R108, Table 6-6). -/
def Obligations.NoticesRoundTrip : Prop :=
  (∀ (n : Notice) (sender : Nat), n.wf = true → sender ≤ 9 → assemblyNotice (n.frame sender) = some (sender, n)) ∧
  ∀ (byte : Byte) (lead : Bool),
    edgeHeard (fun i => (characterLevels (byte, lead)).getD i true) = .character byte lead

/-- The bytes of settings in range, with their check byte, are read as those settings (R180, Table 11-2). -/
def Obligations.ConfigImageRoundTrip : Prop :=
  ∀ x : Settings, x.inRange → readImage (x.bytes ++ [crc8 x.bytes]) = some x

/-- A reply word with one wrong bit, wherever it is, is GARBLED (R36, R39). -/
def Obligations.SingleBitErrorsGarbled : Prop :=
  ∀ (serial : Serial) (unissued : Bool) (echo key : BitVec 4) (i : Nat), i < 48 →
    decodeWord key (Machine.Tag.word serial unissued echo ^^^ (1#48 <<< i)) = .garbled

/-! ### Start-up, configuration and supply -/

/-- The values each reset leaves (the reset columns of Table 1-2 and of R19, R33, R70, R91, R113, R124, R150, R156, R175, R176). -/
def Obligations.ResetsLeave : Prop :=
  ∀ (s : State) (c : Instr), c = .powerOnReset ∨ c = .serviceReset →
    ∃ t, exec c s = .next t ∧ t.pending = s.pending ∧
      (t.startup.state = .reset ∧ t.startup.straps = none ∧ t.startup.image = none ∧ t.startup.resumeTo = none ∧
        t.startup.key = .run ∧ t.startup.keyPending = none) ∧
      (t.cadence.join = .notJoined ∧ t.cadence.frameIdx = 0 ∧ t.tickPosition = 0 ∧ t.cadence.superFrame = 0 ∧
        t.freeRun = 0 ∧ t.cadence.lastQualifying = none ∧ t.cadence.pendingBreak = none ∧ t.cadence.mark = .absent ∧
        t.cadence.adoptedFrame = false ∧ t.cadence.selfLed = false ∧ t.cadence.frameOut = false) ∧
      (t.field.running = false ∧ t.field.request = none ∧ t.field.drive = false) ∧
      t.sampler = ⟨⟨false, 0⟩, ⟨false, 0⟩⟩ ∧ t.sightings = [] ∧
      (t.lane.inner.differ = false ∧ t.lane.outer.differ = false ∧ t.lane.inner.duration = 0 ∧ t.lane.outer.duration = 0 ∧
        t.lane.inner.stuck = false ∧ t.lane.outer.stuck = false ∧ t.lane.passage = .waitClear ∧ t.lane.startStamp = none ∧
        t.lane.clearRun = 0) ∧
      (t.line.tx = .off ∧ t.line.queue = [] ∧ t.line.backoff = false ∧ t.line.rx = .off ∧ t.idleCount = 0 ∧
        t.line.quietFrom = none) ∧
      t.neighbours = ⟨⟨.unknown, 0, none, .noAlarm, false⟩, ⟨.unknown, 0, none⟩, 0, false, false, 0⟩ ∧
      (t.adj.list = [] ∧ t.adj.claims = [] ∧ t.adj.nextCall = 0) ∧ t.carried = [] ∧
      (t.alarm.latch = ⟨.noAlarm, false, false⟩ ∧ t.alarm.cursor = 0 ∧
        t.alarm.journal = if c = .powerOnReset then [] else s.alarm.journal) ∧
      (t.eastSegment = .dark ∧ t.westSegment = .dark ∧ t.faultSegment = .dark ∧ t.sounder = false)

/-- A power-on reset, a service reset and the entry to supply hold empty the queue at once, with the attempt counts of its notices
and any back-off, and no drop report and no sent report is taken: no adjudication is left that one could reach (R112). -/
def Obligations.QueueEmptiedWithNoReport : Prop :=
  ∀ (s : State) (c : Instr),
    (c = .powerOnReset ∨ c = .serviceReset ∨
      ((∃ wait, c = .supplyHold wait) ∧ s.startup.state ≠ .reset ∧ s.startup.state ≠ .hold)) →
    ∃ t, exec c s = .next t ∧ t.line.queue = [] ∧ t.line.dropped = [] ∧ t.line.backoff = false ∧ t.adj.list = []

/-- The block leaves RESET for STRAPS with the count at 0 (R3, R176); at tick 48 the straps are read, and CONFIG begins its read or
the part is in STRAP FAULT (R177, R178, R179). -/
def Obligations.StartSequence : Prop :=
  (∀ s : State, s.startup.state = .reset →
    ∃ t, exec .resetEnd s = .next t ∧ SameBut s [.startup, .cadence] t ∧
      t.startup = { s.startup with state := .straps, supply := .aboveHold } ∧
      t.cadence = { s.cadence with clock := 0, nextFilter := 32 }) ∧
  ∀ (s : State) (pins : BitVec 4) (low : Bool), s.startup.state = .straps → s.cadence.clock ≤ 48 * 15625 →
    ∃ t, exec (.strapsSample pins low) s = .next t ∧ SameBut s [.startup, .cadence] t ∧
      t.freeRun = 48 ∧ s.cadence.sameButTime t.cadence ∧
      t.startup.straps = some ⟨pins.toNat, low || pins.toNat == 9⟩ ∧
      (1 ≤ pins.toNat ∧ pins.toNat ≤ 9 →
        t.startup = { s.startup with
          state := .config
          straps := some ⟨pins.toNat, low || pins.toNat == 9⟩
          configFrom := 48
          port := [.start] }) ∧
      (pins.toNat = 0 ∨ 10 ≤ pins.toNat →
        t.startup = { s.startup with
          state := .strapFault
          straps := some ⟨pins.toNat, low || pins.toNat == 9⟩ })

/-- A transfer of 55 bytes that completes within 1,024 ticks gives the settings it holds when the check and every range hold, and
the defaults otherwise; one that meets no acknowledge, or has not completed by then, gives the defaults; the steps on the port end with
a stop, and LISTENING begins. That a transfer told as complete only after the 1,024 ticks counts as none, at their end, is the model's
choice (notes/assumptions/25.md). A byte sent goes out highest bit first and is followed by a ninth clock with the data line released;
in a byte read the part drives the ninth low to acknowledge, and not for the last byte (R7, R179, R180, R181). -/
def Obligations.ConfigurationTaken : Prop :=
  (∀ (s : State) (wait limit : Nat) (all : List PortAct), s.startup.state = .config →
    limit = (s.startup.configFrom + 1024) * 15625 → s.cadence.clock ≤ limit →
    all = [.start, .send 0xA0, .send 0x00, .repeatedStart, .send 0xA1] ++ List.replicate 54 (.read true) ++ [.read false] →
    ∀ (c : Instr) (image : Option Settings) (acts : List PortAct) (moment : Nat),
      ((∃ bytes : List Byte, c = .configTransferComplete wait bytes ∧ bytes.length = 55 ∧
          s.cadence.clock + wait * 2048 ≤ limit ∧ moment = s.cadence.clock + wait * 2048 ∧ acts = all ∧
          image = if crc8 (bytes.take 54) = bytes.getD 54 0 ∧ imageInRange bytes = true then some (imageSettings bytes)
            else none) ∨
        (∃ sent, sent ≤ 2 ∧ c = .configNoResponse (.noAcknowledge wait sent) ∧
          moment = min (s.cadence.clock + wait * 2048) limit ∧ acts = all.take (if sent = 2 then 5 else sent + 2) ∧
          image = none) ∨
        (∃ n, n < 60 ∧ c = .configNoResponse (.timeout n) ∧ moment = limit ∧ acts = all.take n ∧ image = none) ∨
        (∃ bytes : List Byte, c = .configTransferComplete wait bytes ∧ limit < s.cadence.clock + wait * 2048 ∧
          moment = limit ∧ acts = all.take 59 ∧ image = none)) →
      ∃ t, exec c s = .next t ∧ SameBut s [.cadence, .line, .startup] t ∧ t.cadence.clock = moment ∧
        t.startup = { s.startup with
          state := .listening
          image := some (image.getD defaultSettings)
          defaulted := image.isNone
          keyPending := none
          keyStarted := false
          port := acts ++ [.stop] } ∧
        t.cadence.join = .listening ∧ t.cadence.fromHold = false ∧ t.cadence.listenFrom = t.freeRun ∧
        t.cadence.superFrame = s.cadence.superFrame ∧
        t.line.tx = .waiting ∧ t.line.rx = .hunting ∧ t.line.quietFrom = none ∧ t.line.backoff = false ∧ t.idleCount = 0) ∧
  (∀ byte : Byte, ((PortAct.send byte).levels.filter PortLevel.clock).map PortLevel.data =
    (List.range 8).map (fun i => byte.getLsbD (7 - i)) ++ [true]) ∧
  ∀ acknowledged : Bool, ((PortAct.read acknowledged).levels.filter PortLevel.clock).map PortLevel.data =
    List.replicate 8 true ++ [!acknowledged]

/-- The entry to supply hold: what is emptied, stopped, made dark and kept (R7, R19, R69, R90, R101, R124, R144, R149, R156, R172,
R175, R183). -/
def Obligations.HoldEntered : Prop :=
  ∀ (s : State) (wait : Nat), s.startup.state ≠ .reset → s.startup.state ≠ .hold →
    ∃ t, exec (.supplyHold wait) s = .next t ∧
      SameBut s [.cadence, .field, .sightings, .line, .adj, .startup] t ∧
      t.startup.state = .hold ∧
      t.startup.resumeTo = (if s.startup.state = .straps ∨ s.startup.state = .config then some .straps
        else if s.startup.state = .strapFault then some .strapFault else some .listening) ∧
      (t.startup.straps = s.startup.straps ∧ t.startup.image = s.startup.image ∧
        t.startup.defaulted = s.startup.defaulted ∧ t.startup.key = s.startup.key ∧ t.startup.keyPending = none) ∧
      (t.cadence.join = .notJoined ∧ t.cadence.superFrame = s.cadence.superFrame ∧
        t.cadence.frameIdx = s.cadence.frameIdx ∧ t.cadence.lastQualifying = none ∧ t.cadence.pendingBreak = none ∧
        t.cadence.mark = .absent ∧ t.cadence.adoptedFrame = false ∧ t.cadence.selfLed = false ∧
        t.cadence.frameOut = false) ∧
      (t.field.running = false ∧ t.field.request = none ∧ t.field.drive = false) ∧ t.sightings = [] ∧
      (t.line.tx = .off ∧ t.line.rx = .off ∧ t.line.queue = [] ∧ t.line.backoff = false) ∧
      (t.adj.list = [] ∧ t.adj.claims = [] ∧ t.adj.nextCall = s.adj.nextCall) ∧
      (t.eastSegment = .dark ∧ t.westSegment = .dark ∧ t.faultSegment = .dark ∧ t.sounder = false)

/-- The resume from supply hold to LISTENING, to STRAPS and to STRAP FAULT, with the straps and the image as they were kept (R3, R7, R90,
R91, R113, R124, R184). -/
def Obligations.HoldResumed : Prop :=
  ∀ (s : State) (r : ResumeTo), s.startup.state = .hold → s.startup.resumeTo = some r →
    ∃ t, exec .holdResume s = .next t ∧ SameBut s [.cadence, .lane, .neighbours, .line, .startup] t ∧
      t.startup.state = (match r with
        | .straps => .straps
        | .strapFault => .strapFault
        | .listening => .listening) ∧
      t.freeRun = 0 ∧ t.cadence.nextFilter = 32 ∧ t.cadence.superFrame = s.cadence.superFrame ∧
      (t.lane.started = false ∧ t.lane.passage = .waitClear ∧ t.lane.startStamp = none ∧ t.lane.clearRun = 0 ∧
        t.lane.inner.differ = false ∧ t.lane.outer.differ = false ∧ t.lane.inner.duration = 0 ∧ t.lane.outer.duration = 0 ∧
        t.lane.inner.stuck = false ∧ t.lane.outer.stuck = false) ∧
      t.neighbours = ⟨⟨.unknown, 0, none, .noAlarm, false⟩, ⟨.unknown, 0, none⟩, 0, false, s.neighbours.clash,
        s.neighbours.clashCount⟩ ∧
      (t.startup.image = s.startup.image ∧ t.startup.straps = s.startup.straps ∧
        t.startup.defaulted = s.startup.defaulted ∧ t.startup.key = s.startup.key) ∧
      (r = .listening →
        t.cadence.join = .listening ∧ t.cadence.fromHold = true ∧ t.cadence.listenFrom = 0 ∧ t.startup.keyStarted = false ∧
          t.line.tx = .waiting ∧ t.line.rx = .hunting ∧ t.line.quietFrom = none ∧ t.line.backoff = false ∧
          t.idleCount = 0 ∧ t.line.queue = s.line.queue) ∧
      (r ≠ .listening → t.cadence.join = s.cadence.join ∧ t.line = s.line)

/-- Listening expires after 32,768 ticks with no CADENCE adopted: the part leads itself from tick position 0 of super-frame 0, or of
the kept number plus one after a hold, JOINED, with its mark pending and its RUN request raised unless the key stands in SERVICE (R6,
R8, R9, R10, R20, R82). -/
def Obligations.ListeningExpires : Prop :=
  ∀ s : State, s.cadence.join = .listening → s.startup.state = .listening → s.cadence.lastQualifying = none →
    s.field.running = false → s.field.request = none →
    ∃ t, exec .listeningExpiry s = .next t ∧ SameBut s (.startup :: atFrameStart) t ∧
      t.startup = { s.startup with state := .joined } ∧
      t.cadence.clock = max s.cadence.clock ((s.cadence.listenFrom + 32768) * 15625) ∧
      t.cadence.superFrame = (if s.cadence.fromHold then s.cadence.superFrame + 1 else 0) ∧
      (t.cadence.join = .joined ∧ t.cadence.frameIdx = 0 ∧ t.tickPosition = 0 ∧ t.cadence.adoptedFrame = false ∧
        t.cadence.mark = .pending ∧ t.cadence.markFrame = t.cadence.superFrame ∧ t.cadence.selfLed = true ∧
        t.cadence.frameOut = true ∧ t.cadence.slotKey = BitVec.ofNat 4 (9 * t.cadence.superFrame.toNat)) ∧
      t.cadence.pendingBreak =
        s.cadence.pendingBreak.map (fun b => { b with position := 0, superFrame := t.cadence.superFrame }) ∧
      (t.field.running = false ∧ t.field.drive = false ∧
        t.field.request = (if s.startup.keyStarted = true ∧ s.startup.key = .service then none else some .run)) ∧
      t.lane.passage = s.lane.passage ∧
      (s.lane.passage.inProgress = true → t.lane.startStamp = some ⟨t.cadence.superFrame, 0⟩)

/-! ### Frame starts -/

/-- FRAME_START, the cadence unit: the tick position reaches the next frame by counting, the number rises at the end of frame 24, and
the slot key, the frame output line and the mark are those of the new frame (R1, R2, R4, R5, R6, R9, R11). -/
def Obligations.FrameStartCounts : Prop :=
  ∀ (s : State) (view : StatusView), s.startup.state = .joined → s.cadence.join = .joined → s.cadence.frameIdx < 25 →
    s.cadence.offset ≤ frameLength s.cadence.frameIdx →
    ∃ t, exec (.frameStart view) s = .next t ∧ SameBut s atFrameStart t ∧
      t.freeRun = s.freeRun + (frameLength s.cadence.frameIdx - s.cadence.offset) ∧
      (s.cadence.frameIdx < 24 →
        t.cadence.frameIdx = s.cadence.frameIdx + 1 ∧ t.cadence.superFrame = s.cadence.superFrame ∧
          t.cadence.markFrame = s.cadence.markFrame ∧ t.cadence.mark = (if s.cadence.mark = .pending then .absent else s.cadence.mark)) ∧
      (s.cadence.frameIdx = 24 →
        t.cadence.frameIdx = 0 ∧ t.cadence.superFrame = s.cadence.superFrame + 1 ∧
          t.cadence.markFrame = t.cadence.superFrame ∧
          ((∃ q, s.cadence.lastQualifying = some q ∧ t.freeRun - q ≤ 512) → t.cadence.mark = .absent) ∧
          ((∀ q, s.cadence.lastQualifying = some q → 512 < t.freeRun - q) → t.cadence.mark = .pending)) ∧
      t.cadence = { s.cadence with
        clock := t.cadence.clock
        frameIdx := t.cadence.frameIdx
        superFrame := t.cadence.superFrame
        offset := 0
        startOffset := 0
        adoptedFrame := false
        skips := []
        slotKey := BitVec.ofNat 4 (9 * t.cadence.superFrame.toNat + t.cadence.frameIdx)
        frameOut := decide (t.cadence.frameIdx % 2 = 0)
        mark := t.cadence.mark
        markFrame := t.cadence.markFrame
        slotsEnded := 0
        coilChecked := false }

/-- FRAME_START, the blocks that count: the field driver takes its request; clear run, break durations and the start stamp of a passage
in progress are counted and clamped; silence and clash counts rise at frame 0 only; graces fall and journal ages rise by one. A count
that reaches its end is acted on by the command that follows it, the model's choice of form (notes/assumptions/5.md) (R21, R22, R81, R83,
R85, R118, R120, R121, R152, R173). -/
def Obligations.FrameStartCountsBlocks : Prop :=
  ∀ (s : State) (view : StatusView), s.startup.state = .joined → s.cadence.join = .joined → s.cadence.frameIdx < 25 →
    s.lane.started = true → (∀ e ∈ s.carried, 0 < e.grace) →
    ∃ t, exec (.frameStart view) s = .next t ∧ SameBut s atFrameStart t ∧
      t.field = ⟨t.field.running, none, t.field.running, t.field.running⟩ ∧
      (s.field.request = some .run → t.field.running = true) ∧ (s.field.request = some .stop → t.field.running = false) ∧
      (s.field.request = none → t.field.running = s.field.running) ∧
      (t.lane.passage = s.lane.passage ∧
        t.lane.clearRun = (if s.lane.passage = .clear then min 65535 (s.lane.clearRun + 1) else s.lane.clearRun) ∧
        t.lane.inner = { s.lane.inner with
          duration := if s.lane.inner.broken then min 1500 (s.lane.inner.duration + 1) else s.lane.inner.duration } ∧
        t.lane.outer = { s.lane.outer with
          duration := if s.lane.outer.broken then min 1500 (s.lane.outer.duration + 1) else s.lane.outer.duration } ∧
        ∀ a, s.lane.startStamp = some a → s.lane.passage.inProgress = true →
          t.lane.startStamp = some (if 500 < stampDiff a t.stamp then t.stamp.before 500 else a)) ∧
      (s.cadence.frameIdx < 24 → t.neighbours = s.neighbours) ∧
      (s.cadence.frameIdx = 24 →
        t.neighbours = { s.neighbours with
          west := { s.neighbours.west with
            silence := if 2 ≤ s.position then min 255 (s.neighbours.west.silence + 1) else s.neighbours.west.silence }
          east := { s.neighbours.east with
            silence := if s.position ≤ 8 then min 255 (s.neighbours.east.silence + 1) else s.neighbours.east.silence }
          lineSilence := min 255 (s.neighbours.lineSilence + 1)
          clashCount := if s.neighbours.clash then min 20 (s.neighbours.clashCount + 1) else s.neighbours.clashCount }) ∧
      t.carried = s.carried.map (fun e => { e with grace := e.grace - 1 }) ∧
      t.alarm = { s.alarm with journal := s.alarm.journal.map (fun e => { e with age := min 65535 (e.age + 1) }) }

/-- FRAME_START, the adjudicator, the sighting table and the queue: started deadlines and holds and all claims fall by one, first stamps
are limited to 65,535 frames, and a STATUS stands at the end of the queue at frame index 2p only, filled from the part's state as
Table 7-1 gives, each item that changes at this frame start as `view` takes it. What is due at 0 is taken by the commands that follow:
the model's choice (notes/assumptions/5.md), and the latch in STATUS is that before a settlement (notes/assumptions/36.md) (R57, R109,
R114, R115, R130, R144, R145). -/
def Obligations.FrameStartOffersStatus : Prop :=
  ∀ (s : State) (view : StatusView), s.startup.state = .joined → s.cadence.join = .joined → s.cadence.frameIdx < 25 →
    s.HasRoom 1 → (∀ c ∈ s.adj.claims, 0 < c.remaining) →
    ∃ t, exec (.frameStart view) s = .next t ∧ SameBut s atFrameStart t ∧
      t.adj.nextCall = s.adj.nextCall ∧
      t.adj.list = s.adj.list.map (fun a => { a with
        deadline := if a.state = .collecting then a.deadline.map (· - 1) else a.deadline
        hold := if a.state = .holding then a.hold.map (· - 1) else a.hold }) ∧
      t.adj.claims = s.adj.claims.map (fun c => { c with remaining := c.remaining - 1 }) ∧
      t.sightings = s.sightings.map (fun r =>
        if 65535 < stampDiff r.firstStamp t.stamp then { r with firstStamp := t.stamp.before 65535 } else r) ∧
      (t.cadence.frameIdx ≠ 2 * s.position → t.line = s.line) ∧
      (t.cadence.frameIdx = 2 * s.position →
        t.line = { s.line with queue := s.line.queue ++ [⟨.status t.cadence.superFrame
          { westFault := s.sampler.west.faulted
            eastFault := s.sampler.east.faulted
            innerStuck := s.ownsLane && (s.lane.inner.stuck ||
              (view.inner && t.lane.inner.broken && decide (1500 ≤ t.lane.inner.duration)))
            outerStuck := s.ownsLane && (s.lane.outer.stuck ||
              (view.outer && t.lane.outer.broken && decide (1500 ≤ t.lane.outer.duration)))
            laneBusy := s.ownsLane && s.lane.passage != .clear
            service := s.startup.key == .service
            defaulted := s.startup.defaulted
            clash := s.neighbours.clash
            watchedTag := (if view.watched then t.tableAfter else s.sightings).any (fun r => r.watched && !r.isStray)
            fieldRunning := if view.running then t.field.running else s.field.running }
          (if s.ownsLane then s.alarm.latch.cls else .noAlarm) (s.ownsLane && s.alarm.latch.acknowledged),
          0, false, false⟩] })

/-! ### Marks -/

/-- A pending mark goes out as soon as the line has been high for 12 bit times, counted from the end of a character's stop bit (the
model's reading, notes/assumptions/38.md) and after the edges that the part sees before (notes/assumptions/14.md), its CADENCE carrying
the ticks waited as its delay, and not while the line is low, a quiet runs or the transmitter is busy. At a full queue the newest notice
of the lowest priority is dropped for it, with its drop report. A mark that has waited 256 ticks is abandoned; one whose line does not
return high 8 bit times after the 24 of its break is lost with no report (R9, R10, R11, R94, R111). -/
def Obligations.MarksSentOrLost : Prop :=
  (∀ s u : State, u = s.readEdges 12 2048 → s.startup.state = .joined → s.cadence.join = .joined →
    (u.line.lowFrom ≠ none ∨ u.line.quietFrom ≠ none ∨ u.line.tx ≠ .waiting ∨ u.cadence.frameIdx ≠ 0 →
      exec .markSend s = .next u) ∧
    (u.cadence.mark = .pending → u.cadence.frameIdx = 0 → u.line.tx = .waiting → u.line.quietFrom = none →
      u.line.lowFrom = none → (u.toMoment (u.line.idleFrom + 12 * 2048)).cadence.offset ≤ 255 → u.line.dropped = [] →
      ∃ t, exec .markSend s = .next t ∧ SameBut u [.cadence, .line, .adj, .sightings] t ∧
        t.cadence = { (u.toMoment (u.line.idleFrom + 12 * 2048)).cadence with mark := .inSending } ∧
        t.cadence.clock = max u.cadence.clock (u.line.idleFrom + 12 * 2048) ∧
        t.line = { u.line with
          tx := .brk
          sending := []
          txFrom := t.cadence.clock
          idleFrom := t.cadence.clock
          lowFrom := some t.cadence.clock
          queue := t.line.queue
          dropped := t.line.dropped } ∧
        ∀ mark : Queued, mark = ⟨.cadence u.cadence.markFrame (BitVec.ofNat 8 t.cadence.offset)
          (decide (0 < t.cadence.offset)) u.cadence.selfLed, 0, true, false⟩ →
        (u.HasRoom 1 → SameBut u [.cadence, .line] t ∧ t.line.dropped = [] ∧ t.line.queue = u.line.queue ++ [mark]) ∧
        ∀ (pre post : List Queued) (d : Queued), u.line.queue = pre ++ d :: post → u.line.queue.length = 12 →
          d.inTransmission = false → (∀ x ∈ pre, x.inTransmission = false → x.notice.priority ≤ d.notice.priority) →
          (∀ x ∈ post, x.inTransmission = false → x.notice.priority < d.notice.priority) →
          ((∀ id lane part es, d.notice ≠ .verdict id lane part true es) → (∀ id lane a b, d.notice ≠ .call id lane a b) →
            SameBut u [.cadence, .line] t ∧ t.line.dropped = [] ∧ t.line.queue = pre ++ post ++ [mark]) ∧
          (∀ id lane part es, d.notice = .verdict id lane part true es →
            SameBut u [.cadence, .line, .adj] t ∧ t.line.dropped = [] ∧ t.line.queue = pre ++ post ++ [mark] ∧
            t.adj = { u.adj with list := u.adj.list.map (fun a =>
              if a.callId = id ∧ a.state = .holding ∧ a.hold = none then { a with hold := some 3 } else a) }) ∧
          ∀ id lane a b, d.notice = .call id lane a b → (∀ x ∈ u.adj.list, ¬(x.callId = id ∧ x.state = .collecting)) →
            SameBut u [.cadence, .line] t ∧ t.line.dropped = [] ∧ t.line.queue = pre ++ post ++ [mark])) ∧
  (∀ s : State, s.startup.state = .joined → s.cadence.join = .joined → s.cadence.mark = .pending →
    ∃ t, exec .markAbandon s = .next t ∧ SameBut s [.cadence] t ∧ t.cadence.mark = .absent ∧
      s.cadence.sameButTime { t.cadence with mark := .pending } ∧
      t.cadence.offset = (if s.cadence.frameIdx = 0 then max s.cadence.offset 256 else s.cadence.offset)) ∧
  ∀ s : State, s.clockRuns = true → s.line.tx = .brk → s.line.sending = [] →
    ∃ t, exec .breakReleaseTimeout s = .next t ∧ SameBut s [.cadence, .line] t ∧
      t.cadence.clock = max s.cadence.clock (s.line.txFrom + 32 * 2048) ∧ t.cadence.mark = .absent ∧
      s.cadence.sameButTime { t.cadence with mark := s.cadence.mark } ∧
      t.line = { s.line with
        tx := .waiting
        sending := []
        queue := s.line.queue.filter (fun q => !q.inTransmission)
        idleFrom := t.cadence.clock }

/-! ### The field, the slots and the table -/

/-- TRANSMIT_WINDOW_END: both drive outputs are released at offset 320, and no carrier is left. While a running frame is driven, its carrier
is the pattern of its key from its start offset on, with no gap longer than 3 ticks. A tag that has heard none for 32 ticks or more reads
the slot key of a frame driven from offset 0, and the OR of the keys of two that overlap in step; of a frame begun at offset 13 it reads
15, or, with the key's bit 2 at 0, the key's bits 1 and 0 and then 1 and 1; one that has heard carrier within 32 ticks starts no cell 0
there. It replies with the key it read, and the reply is MISPLACED unless that is the key of the frame (R22, R34, R39). -/
def Obligations.TransmitWindowReleased : Prop :=
  (∀ s : State, s.startup.state = .joined → s.cadence.join = .joined →
    ∃ t, exec .transmitWindowEnd s = .next t ∧ SameBut s [.cadence, .field] t ∧
      t.field = { s.field with drive := false } ∧ t.carrier = false ∧ s.cadence.sameButTime t.cadence ∧
      t.cadence.offset = max s.cadence.offset 320) ∧
  (∀ s : State, s.field.drive = true → s.cadence.startOffset ≤ s.cadence.offset →
    s.carrier = Machine.Tag.frameDrive s.cadence.slotKey s.cadence.startOffset s.cadence.offset) ∧
  (∀ key : BitVec 4, Machine.Tag.readKey (carrierPattern key) = key ∧
    (∀ i, 32 ≤ i → i < 320 → carrierPattern key i = true) ∧ (∀ i, 320 ≤ i → carrierPattern key i = false) ∧
    ∀ i, 3 ≤ i → i < 320 → ∃ j, i ≤ j + 3 ∧ j ≤ i ∧ carrierPattern key j = true) ∧
  (∀ (key other : BitVec 4) (silent : Nat), 32 ≤ silent →
    Machine.Tag.keyRead (Machine.Tag.frameDrive key 0) 320 silent = some key ∧
    Machine.Tag.keyRead (Machine.Tag.overlap (Machine.Tag.frameDrive key 0) (Machine.Tag.frameDrive other 0)) 320 silent =
      some (key ||| other) ∧
    (key.getLsbD 2 = true → Machine.Tag.keyRead (Machine.Tag.frameDrive key 13) 320 silent = some 15) ∧
    (key.getLsbD 2 = false →
      Machine.Tag.keyRead (Machine.Tag.frameDrive key 13) 320 silent = some (key.extractLsb' 0 2 ++ 3#2))) ∧
  (∀ (key : BitVec 4) (silent : Nat), silent < 32 → Machine.Tag.keyRead (Machine.Tag.frameDrive key 0) 320 silent = none) ∧
  ∀ (serial : Serial) (unissued : Bool) (key read : BitVec 4) (carrier : Nat → Bool) (ticks silent : Nat) (answer : Nat × BitVec 48),
    Machine.Tag.keyRead carrier ticks silent = some read →
    Machine.Tag.reply serial unissued carrier ticks silent = some answer →
    answer.2 = Machine.Tag.word serial unissued read ∧
      decodeWord key answer.2 = if read = key then .reply serial unissued else .misplaced

/-- SLOT_END. A slot cut by the frame's start offset or by skipped ticks leaves no trace. In a sampled one, each face's amplitude is its
strongest envelope of slot ticks 2 to 15, at most 1023, and 0 for a FAULTED face; below the noise floor on both faces it leaves no trace;
otherwise the stream of the face with the larger amplitude, the west of equals, captured in those ticks, is decoded, and a tag's
transmission there is applied to the sighting table with both amplitudes when its echo is the key of the frame, and leaves no trace when
it is not; a GARBLED slot leaves none either, be it that no lead-in with 48 further bits is captured, or that the word after it fails its
check or has no status code (R24 to R27, R38 to R40, R43). -/
def Obligations.SlotRepliesApplied : Prop :=
  ∀ (s : State) (slot begin : Nat) (ws es : List FaceTick),
    s.startup.state = .joined → s.cadence.join = .joined → slot < 16 → begin = 320 + s.settings.settle + 18 * slot →
    (begin < s.cadence.startOffset ∨ (∃ f k, (f, k) ∈ s.cadence.skips ∧ f < begin + 18 ∧ begin < f + k) →
      exec (.slotHeard slot ws es) s = .next s) ∧
    (s.cadence.startOffset ≤ begin → (∀ f k, (f, k) ∈ s.cadence.skips → begin + 18 ≤ f ∨ f + k ≤ begin) →
      s.cadence.slotsEnded ≤ slot → s.cadence.offset ≤ begin + 18 → ws.length = 18 → es.length = 18 →
      ∀ aw ae : Nat,
        aw = (if s.sampler.west.faulted then 0
          else min 1023 (((ws.drop 2).take 14).foldl (fun m x => max m x.envelope) 0)) →
        ae = (if s.sampler.east.faulted then 0
          else min 1023 (((es.drop 2).take 14).foldl (fun m x => max m x.envelope) 0)) →
      ∃ t, exec (.slotHeard slot ws es) s = .next t ∧ SameBut s [.cadence, .sightings] t ∧
        s.cadence.sameButTime { t.cadence with slotsEnded := s.cadence.slotsEnded } ∧
        t.cadence.slotsEnded = slot + 1 ∧ t.cadence.offset = begin + 18 ∧
        (aw < s.settings.noiseFloor → ae < s.settings.noiseFloor → t.sightings = s.sightings) ∧
        (∀ bits : List Bool, (s.settings.noiseFloor ≤ aw ∨ s.settings.noiseFloor ≤ ae) →
          (ae ≤ aw → s.sampler.west.faulted = false ∧ bits = ((ws.drop 2).take 14).flatMap FaceTick.bits) →
          (aw < ae → bits = ((es.drop 2).take 14).flatMap FaceTick.bits) →
          ((∀ pre post, bits = pre ++ bitsOf 0xFF01#16 ++ post → post.length < 48) ∨
            ∃ (silence : Nat) (word : BitVec 48) (after : List Bool),
              bits = List.replicate silence false ++ bitsOf 0xFF01#16 ++ bitsOf word ++ after ∧
              (crc8 (be32 (word.extractLsb' 16 32) ++ [word.extractLsb' 8 8]) ≠ word.extractLsb' 0 8 ∨
                (word.extractLsb' 12 4 ≠ 6 ∧ word.extractLsb' 12 4 ≠ 9))) →
          t.sightings = s.sightings) ∧
        ∀ (silence : Nat) (after : List Bool) (serial : Serial) (unissued : Bool) (echo : BitVec 4),
          (s.settings.noiseFloor ≤ aw ∨ s.settings.noiseFloor ≤ ae) →
          (ae ≤ aw → s.sampler.west.faulted = false ∧ ((ws.drop 2).take 14).flatMap FaceTick.bits =
            List.replicate silence false ++ Machine.Tag.transmission serial unissued echo ++ after) →
          (aw < ae → ((es.drop 2).take 14).flatMap FaceTick.bits =
            List.replicate silence false ++ Machine.Tag.transmission serial unissued echo ++ after) →
          (echo = s.cadence.slotKey → t.sightings = applyReply s.settings.moveStep
            ⟨serial, unissued, s.settings.watch.any (fun x => x.enabled && x.serial == serial), s.stamp, aw, ae⟩
            s.sightings) ∧
          (echo ≠ s.cadence.slotKey → t.sightings = s.sightings))

/-- A reply whose serial no record holds: a LIVE record of that one reply joins the table; at 48 records the FADING one with the earliest
last stamp makes room, else the STRAY one with the earliest first stamp, and with neither the reply is dropped. Between equal ages the
lower serial goes (R48, R49, R50). -/
def Obligations.NewSerialsRecorded : Prop :=
  ∀ (moveStep : Nat) (r : Reply) (table : List Record), TableSound table → (∀ x ∈ table, x.serial ≠ r.serial) →
    ∀ new : Record, new = ⟨r.serial, r.unissued, r.watched, .live, r.stamp, r.stamp, r.west, r.east, 1, r.west, r.east⟩ →
    (table.length < 48 → ∀ x, x ∈ applyReply moveStep r table ↔ x = new ∨ x ∈ table) ∧
    (48 ≤ table.length → ∀ out ∈ table, out.state = .fading →
      (∀ x ∈ table, x.state = .fading → x ≠ out →
        stampDiff x.lastStamp r.stamp < stampDiff out.lastStamp r.stamp ∨
          (stampDiff x.lastStamp r.stamp = stampDiff out.lastStamp r.stamp ∧ out.serial.toNat < x.serial.toNat)) →
      ∀ x, x ∈ applyReply moveStep r table ↔ x = new ∨ (x ∈ table ∧ x ≠ out)) ∧
    (48 ≤ table.length → (∀ x ∈ table, x.state ≠ .fading) → ∀ out ∈ table, out.isStray = true →
      (∀ x ∈ table, x.isStray = true → x ≠ out →
        stampDiff x.firstStamp r.stamp < stampDiff out.firstStamp r.stamp ∨
          (stampDiff x.firstStamp r.stamp = stampDiff out.firstStamp r.stamp ∧ out.serial.toNat < x.serial.toNat)) →
      ∀ x, x ∈ applyReply moveStep r table ↔ x = new ∨ (x ∈ table ∧ x ≠ out)) ∧
    (48 ≤ table.length → (∀ x ∈ table, x.state = .live) → applyReply moveStep r table = table)

/-- A reply whose serial a record holds: ignored when the record's last stamp is the reply's; counted into a LIVE or FADING record, sums
and reads saturating; it only touches a STRAY record that has not moved by more than the move step on either face, and releases one
that has. No other record changes (R41, R51 to R55). -/
def Obligations.KnownSerialsCounted : Prop :=
  ∀ (moveStep : Nat) (r : Reply) (table : List Record), TableSound table → ∀ rec ∈ table, rec.serial = r.serial →
    ∃ rec' : Record, applyReply moveStep r table = table.map (fun x => if x = rec then rec' else x) ∧
      (rec.lastStamp = r.stamp → rec' = rec) ∧
      (rec.lastStamp ≠ r.stamp → rec.isStray = false →
        rec' = ⟨r.serial, r.unissued, rec.watched || r.watched, .live, if rec.reads = 0 then r.stamp else rec.firstStamp,
          r.stamp, min 16777215 (rec.westSum + r.west), min 16777215 (rec.eastSum + r.east), min 65535 (rec.reads + 1),
          r.west, r.east⟩) ∧
      ∀ aw ae : Nat, rec.lastStamp ≠ r.stamp → rec.state = .stray aw ae →
        (((r.west : Int) - aw).natAbs ≤ moveStep ∧ ((r.east : Int) - ae).natAbs ≤ moveStep →
          rec' = { rec with lastStamp := r.stamp, lastWest := r.west, lastEast := r.east }) ∧
        (moveStep < ((r.west : Int) - aw).natAbs ∨ moveStep < ((r.east : Int) - ae).natAbs →
          rec' = ⟨r.serial, r.unissued, rec.watched || r.watched, .live, r.stamp, r.stamp, r.west, r.east, 1, r.west,
            r.east⟩)

/-- COIL_CHECK in the tail of frame 12, once: each face takes its own reading, 41..999 good and 0..40 or 1000..1023 bad. A GOOD face
counts bad results and becomes FAULTED at the second in a row; a FAULTED face counts good results and becomes GOOD at the third in a row
(R29, R30, R31). -/
def Obligations.CoilCheckJudgesFaces : Prop :=
  ∀ (s : State) (w e : Nat), s.startup.state = .joined → s.cadence.join = .joined → s.cadence.frameIdx = 12 →
    s.cadence.coilChecked = false → s.cadence.offset ≤ 610 + s.settings.settle → w ≤ 1023 → e ≤ 1023 →
    ∃ t, exec (.coilCheck w e) s = .next t ∧ SameBut s [.cadence, .sampler] t ∧
      s.cadence.sameButTime { t.cadence with coilChecked := false } ∧ t.cadence.coilChecked = true ∧
      t.cadence.offset = 610 + s.settings.settle ∧
      ∀ (before after : Face) (reading : Nat),
        (before, after, reading) = (s.sampler.west, t.sampler.west, w) ∨
          (before, after, reading) = (s.sampler.east, t.sampler.east, e) →
        (before.faulted = false → 41 ≤ reading ∧ reading ≤ 999 → after = ⟨false, 0⟩) ∧
        (before.faulted = false → reading ≤ 40 ∨ 1000 ≤ reading → before.count = 0 → after = ⟨false, 1⟩) ∧
        (before.faulted = false → reading ≤ 40 ∨ 1000 ≤ reading → before.count = 1 → after = ⟨true, 0⟩) ∧
        (before.faulted = true → reading ≤ 40 ∨ 1000 ≤ reading → after = ⟨true, 0⟩) ∧
        (before.faulted = true → 41 ≤ reading ∧ reading ≤ 999 → before.count ≤ 1 → after = ⟨true, before.count + 1⟩) ∧
        (before.faulted = true → 41 ≤ reading ∧ reading ≤ 999 → before.count = 2 → after = ⟨false, 0⟩) ∧
        ((before.faulted = false → before.count ≤ 1) ∧ (before.faulted = true → before.count ≤ 2) →
          (after.faulted = false → after.count ≤ 1) ∧ (after.faulted = true → after.count ≤ 2))

/-- RECORD_FADE outside tag-only working makes FADING every LIVE record unheard for 25 frames; RECORD_AGE_FREE frees every FADING record
unheard for 100 frames and every STRAY record unheard for 25, with no report. Nothing else changes (R58, R59, R87). -/
def Obligations.RecordsFadeAndGo : Prop :=
  (∀ (s : State) (ties : Ties), s.lane.passage ≠ .tagOnly ∨ s.startup.key = .service →
    ∃ t, exec (.recordFade ties) s = .next t ∧ SameBut s [.sightings] t ∧
      t.sightings = s.sightings.map (fun r =>
        if r.state = .live ∧ 25 ≤ stampDiff r.lastStamp s.stamp then { r with state := .fading } else r)) ∧
  ∀ s : State, ∃ t, exec .recordAgeFree s = .next t ∧ SameBut s [.sightings] t ∧
    ∀ r, r ∈ t.sightings ↔ r ∈ s.sightings ∧
      ¬(r.state = .fading ∧ 100 ≤ stampDiff r.lastStamp s.stamp) ∧
      ¬(r.isStray = true ∧ 25 ≤ stampDiff r.lastStamp s.stamp)

/-- RECORD_FADE in tag-only working, the key not in SERVICE: each fading record that is effectively UNISSUED and heard at least as
much east as west is delivered as a FADE trigger, one after another in order of serial, an UNDIRECTED passage over the record's own
stamps with the clamp of R87; with none the records only fade. That every report of the frame start is fixed before the first trigger is
delivered, so that a record which an earlier trigger's VERDICT has reset still triggers, is the model's choice (notes/assumptions/23.md):
`reports` is taken from the state before. Under a clash a trigger is discarded; otherwise an adjudication opens,
called for or weighed at once. `ties` says which frame-start work the weighings and settlements of it precede, in orders the model adds
for the claims and for the grace of a settlement (notes/assumptions/6.md) (R58, R87, R122, R126 to R129). -/
def Obligations.FadeTriggerCallsPartner : Prop :=
  (∀ (s : State) (ties : Ties) (reports faded : List Record), s.lane.passage = .tagOnly → s.startup.key ≠ .service →
    reports = s.sightings.filter (fun x => x.state == .live && 25 ≤ stampDiff x.lastStamp s.stamp && 0 < x.reads &&
      (x.unissued || x.watched) && x.westSum ≤ x.eastSum) →
    faded = s.sightings.map (fun x =>
      if x.state = .live ∧ 25 ≤ stampDiff x.lastStamp s.stamp then { x with state := .fading } else x) →
    ∃ t, exec (.recordFade ties) s = .next t ∧ SameBut s [.sightings, .adj, .line, .carried, .alarm] t ∧
      FadesTo ties (s.withSightings faded) reports t) ∧
  ∀ (s : State) (ties : Ties) (r : Record) (faded : List Record) (a : Stamp), s.lane.passage = .tagOnly →
    s.startup.key ≠ .service →
    s.sightings.filter (fun x => x.state == .live && 25 ≤ stampDiff x.lastStamp s.stamp && 0 < x.reads &&
      (x.unissued || x.watched) && x.westSum ≤ x.eastSum) = [r] →
    faded = s.sightings.map (fun x =>
      if x.state = .live ∧ 25 ≤ stampDiff x.lastStamp s.stamp then { x with state := .fading } else x) →
    a = (if 500 < stampDiff r.firstStamp r.lastStamp then r.lastStamp.before 500
      else if stampDiff r.firstStamp r.lastStamp < 0 then r.lastStamp else r.firstStamp) →
    (s.neighbours.clash = true →
      ∃ t, exec (.recordFade ties) s = .next t ∧ SameBut s [.sightings] t ∧ t.sightings = faded) ∧
    (s.neighbours.clash = false → s.HasRoom 7 → (∀ b ∈ s.adj.list, b.candidates.length ≤ 24) →
      ∃ t, exec (.recordFade ties) s = .next t ∧ SameBut s [.sightings, .adj, .line, .carried, .alarm] t ∧
        OpenedTo (s.withSightings faded) ties
          ((s.withSightings faded).opening .fade .undirected a r.lastStamp) t)

/-- STRAY_MARK: with a lane condition failing nothing changes; with both holding, and room under the 16 of the stray cap, every LIVE record
whose first stamp is at least the stray age old becomes STRAY, its anchor its last amplitudes, its sums and reads 0, and no other
record changes. At any number of STRAY records they are marked one at a time, the earliest first stamp first and the lowest serial of
equals: marking the first of them, which frees the earliest STRAY record when 16 are held, and then the rest is the same (R48, R60 to
R63). -/
def Obligations.StraysMarked : Prop :=
  ∀ s : State, TableSound s.sightings →
    ∃ t, exec .strayMark s = .next t ∧ SameBut s [.sightings] t ∧
      ((s.ownsLane = true ∧ s.lane.clearRun < 250) ∨
        (2 ≤ s.position ∧ s.neighbours.west.presence = .present ∧ s.neighbours.west.laneBusy ≠ some false) →
        t.sightings = s.sightings) ∧
      ((s.ownsLane = true → 250 ≤ s.lane.clearRun) →
        (2 ≤ s.position → s.neighbours.west.presence = .present → s.neighbours.west.laneBusy = some false) →
        (strayCount s.sightings + (s.sightings.filter (fun r =>
          r.state == .live && (s.settings.strayAge : Int) ≤ stampDiff r.firstStamp s.stamp)).length ≤ 16 →
        t.sightings = s.sightings.map (fun r =>
          if r.state = .live ∧ (s.settings.strayAge : Int) ≤ stampDiff r.firstStamp s.stamp then
            { r with state := .stray r.lastWest r.lastEast, westSum := 0, eastSum := 0, reads := 0 }
          else r)) ∧
        ∀ r ∈ s.sightings, r.state = .live → (s.settings.strayAge : Int) ≤ stampDiff r.firstStamp s.stamp →
          (∀ x ∈ s.sightings, x ≠ r → x.state = .live → (s.settings.strayAge : Int) ≤ stampDiff x.firstStamp s.stamp →
            stampDiff x.firstStamp s.stamp < stampDiff r.firstStamp s.stamp ∨
              (stampDiff x.firstStamp s.stamp = stampDiff r.firstStamp s.stamp ∧ r.serial.toNat < x.serial.toNat)) →
          ∀ (marked : Record) (table : List Record), TableSound table →
            marked = { r with state := .stray r.lastWest r.lastEast, westSum := 0, eastSum := 0, reads := 0 } →
            ((strayCount s.sightings < 16 ∧ ∀ x, x ∈ table ↔ x = marked ∨ (x ∈ s.sightings ∧ x ≠ r)) ∨
              (strayCount s.sightings = 16 ∧ ∃ out ∈ s.sightings, out.isStray = true ∧
                (∀ x ∈ s.sightings, x ≠ out → x.isStray = true →
                  stampDiff x.firstStamp s.stamp < stampDiff out.firstStamp s.stamp ∨
                    (stampDiff x.firstStamp s.stamp = stampDiff out.firstStamp s.stamp ∧
                      out.serial.toNat < x.serial.toNat)) ∧
                ∀ x, x ∈ table ↔ x = marked ∨ (x ∈ s.sightings ∧ x ≠ r ∧ x ≠ out))) →
            exec .strayMark s = exec .strayMark (s.withSightings table))

/-! ### The lane and the staff key -/

/-- FILTER_TICK: it falls at the next multiple of 32 of the free-running count that has had none, the lane monitor takes the samples
from the reading of the straps or a resume on, and the staff key is read while LISTENING or JOINED: directly at the first tick, at two
equal samples afterwards. A movement into or out of SERVICE raises STOP or RUN while JOINED (R3, R20, R71 to R78, R88, R182). -/
def Obligations.FilterTickReadsKey : Prop :=
  ∀ (s : State) (i o a v : Bool) (order : TickOrder), s.clockRuns = true →
    ∃ t, exec (.filterTick i o a v order) s = .next t ∧
      SameBut s [.cadence, .lane, .startup, .field, .line, .adj, .sightings, .carried, .alarm] t ∧
      t.cadence.clock = max s.cadence.clock (s.cadence.nextFilter * 15625) ∧
      t.cadence.nextFilter = s.cadence.nextFilter + 32 ∧
      s.cadence.sameButTime { t.cadence with nextFilter := s.cadence.nextFilter } ∧
      (s.startup.straps = none → s.startup.resumeTo = none → SameBut s [.cadence] t) ∧
      (s.startup.straps ≠ none ∨ s.startup.resumeTo ≠ none →
        (s.lane.Sound → s.endPedestal = false → LaneSampled s.lane s.stamp i o t.lane) ∧
        (s.lane.Sound → s.endPedestal = true →
          t.lane.started = true ∧ t.lane.passage = .clear ∧ t.lane.startStamp = none ∧
            t.lane.inner.stuck = false ∧ t.lane.outer.stuck = false) ∧
        (s.startup.state ≠ .listening → s.startup.state ≠ .joined → t.startup = s.startup ∧ t.field = s.field) ∧
        (s.startup.state = .listening ∨ s.startup.state = .joined → ∀ raw : Option KeyPosition,
          raw = (if a then (if v then none else some .ack) else if v then some .service else some .run) →
          t.startup = { s.startup with
            key := t.startup.key
            keyPending := t.startup.keyPending
            keyStarted := true } ∧
          (s.startup.keyStarted = false → t.startup.key = raw.getD .run ∧ t.startup.keyPending = none) ∧
          (s.startup.keyStarted = true → (raw = none ∨ raw = some s.startup.key) →
            t.startup.key = s.startup.key ∧ t.startup.keyPending = none) ∧
          (s.startup.keyStarted = true → ∀ k, raw = some k → k ≠ s.startup.key →
            (s.startup.keyPending ≠ some k → t.startup.key = s.startup.key ∧ t.startup.keyPending = some k) ∧
            (s.startup.keyPending = some k → t.startup.key = k ∧ t.startup.keyPending = none)) ∧
          t.field = { s.field with
            request := if s.cadence.join = .joined then
                (if t.startup.key = .service ∧ (s.startup.keyStarted = false ∨ s.startup.key ≠ .service) then some .stop
                else if s.startup.keyStarted = true ∧ s.startup.key = .service ∧ t.startup.key ≠ .service then some .run
                else s.field.request)
              else s.field.request }))

/-- A passage completes only from a state that closes it or spans both beams; the state it completes from is its direction, the lane
returns to CLEAR with no start stamp, its end is the present frame and its start is not later. CLEAR is entered, and reported so, by
just the ticks that find the lane in another state and leave it in CLEAR (R73 to R80). -/
def Obligations.PassagesCompleteByDirection : Prop :=
  ∀ (l : LaneMonitor) (now : Stamp) (i o : Bool), l.Sound → l.started = true →
    ((l.tick false now i o).2.enteredClear = true ↔
      l.passage ≠ .clear ∧ (l.tick false now i o).1.passage = .clear) ∧
    ∀ p : Completed, (l.tick false now i o).2.completed = some p →
      (l.tick false now i o).1.passage = .clear ∧ (l.tick false now i o).1.startStamp = none ∧
        (l.tick false now i o).2.enteredClear = true ∧
        p.endStamp = now ∧ 0 ≤ stampDiff p.startStamp p.endStamp ∧
        (p.direction = .outbound ↔ l.passage = .outClosing) ∧ (p.direction = .inbound ↔ l.passage = .inClosing) ∧
        (p.direction = .undirected ↔ l.passage = .outSpanned ∨ l.passage = .inSpanned ∨ l.passage = .bothSpanned)

/-- FILTER_TICK at which the beams still broken are filtered CLEAR and Table 5-2 completes a passage: not JOINED, with the key in SERVICE
or under a clash it is discarded and leaves no trace; otherwise an adjudication opens over the window from 25 frames before its start,
called for or weighed at once. A start later than the end is the end. A latch that waits for the lane clears at the same tick, before the
delivery or after it, as `order` has it (notes/assumptions/6.md) (R79, R80, R122, R125 to R129, R166). -/
def Obligations.PassageCallsPartner : Prop :=
  ∀ (s : State) (order : TickOrder) (start first : Stamp) (d : Direction) (x : Adjudication),
    s.startup.state = .listening ∨ s.startup.state = .joined → s.startup.straps.isSome = true → s.endPedestal = false →
    s.startup.keyStarted = true → s.lane.Sound → s.lane.started = true →
    (s.lane.passage, false, false, .clear, some d) ∈ passageMoves →
    (s.lane.inner.broken = true → s.lane.inner.differ = true) → (s.lane.outer.broken = true → s.lane.outer.differ = true) →
    s.lane.startStamp = some start → first = (if stampDiff start s.stamp < 0 then s.stamp else start) →
    x = s.opening .passage d (first.before 25) s.stamp → s.line.dropped = [] →
    ∃ t, exec (.filterTick false false (s.startup.key == .ack) (s.startup.key == .service) order) s = .next t ∧
      t.lane.passage = .clear ∧ t.lane.startStamp = none ∧ t.startup = { s.startup with keyPending := none } ∧
      (s.alarm.latch.clearPending = false →
        (s.cadence.join ≠ .joined ∨ s.startup.key = .service ∨ s.neighbours.clash = true →
          SameBut s [.cadence, .lane, .startup] t) ∧
        (s.cadence.join = .joined → s.startup.key ≠ .service → s.neighbours.clash = false → s.HasRoom 7 →
          (∀ b ∈ s.adj.list, b.candidates.length ≤ 24) →
          SameBut s [.cadence, .lane, .startup, .adj, .line, .sightings, .carried, .alarm] t ∧ OpenedTo s .none x t)) ∧
      (s.HasRoom 8 →
        (s.cadence.join ≠ .joined ∨ s.startup.key = .service ∨ s.neighbours.clash = true →
          SameBut s [.cadence, .lane, .startup, .line, .alarm] t ∧ t.alarm = s.latchCleared.alarm ∧
            t.line = s.latchCleared.line) ∧
        (s.cadence.join = .joined → s.startup.key ≠ .service → s.neighbours.clash = false →
          (∀ b ∈ s.adj.list, b.candidates.length ≤ 24) →
          SameBut s [.cadence, .lane, .startup, .adj, .line, .sightings, .carried, .alarm] t ∧
            (order.reportFirst = true → OpenedTo s.latchCleared .none x t) ∧
            (order.reportFirst = false → ∃ u, SameBut t [.line, .alarm] u ∧ OpenedTo s .none x u ∧
              t.alarm = u.latchCleared.alarm ∧ t.line = u.latchCleared.line)))

/-- FILTER_TICK at which the staff key arrives in ACK: a pedestal at position 2 or above offers an ACK for the lane of its west neighbour,
after the ALARM of its own latch; a latch that is NONE is left alone; set, the journal is marked, and it clears in LATCHED mode, or in
CLEARING mode with the lane CLEAR, and else waits acknowledged for the lane. At a tick at which the lane returns to CLEAR, a latch in
CLEARING mode that waits so clears, with CLEARED offered, and no other latch changes (R161 to R167, R182). -/
def Obligations.KeyIntoAckOffersAck : Prop :=
  (∀ (s : State) (order : TickOrder) (acks : List Notice), s.startup.state = .listening ∨ s.startup.state = .joined →
    s.startup.straps.isSome = true → s.startup.keyStarted = true → s.startup.key ≠ .ack → s.startup.keyPending = some .ack →
    s.lane.Sound → s.lane.started = true → (s.endPedestal = true → s.lane.passage = .clear) →
    (s.lane.passage = .waitClear → s.lane.inner.broken = true ∨ s.lane.outer.broken = true) → s.HasRoom 2 →
    acks = (if 2 ≤ s.position then [.ack (BitVec.ofNat 8 (s.position - 1))] else []) →
    ∃ t, exec (.filterTick s.lane.inner.broken s.lane.outer.broken true false order) s = .next t ∧
      SameBut s [.cadence, .lane, .startup, .field, .alarm, .line] t ∧
      t.startup = { s.startup with key := .ack, keyPending := none } ∧ t.lane.passage = s.lane.passage ∧
      t.alarm.cursor = s.alarm.cursor ∧
      (s.alarm.latch.cls = .noAlarm →
        t.alarm = s.alarm ∧ t.line = { s.line with queue := s.line.queue ++ acks.map Queued.fresh }) ∧
      (s.alarm.latch.cls ≠ .noAlarm →
        t.alarm.journal = s.alarm.journal.map (fun e => { e with acknowledged := true }) ∧
        (s.settings.latchMode = .latched ∨ (s.alarm.latch.acknowledged = false ∧ s.lane.passage = .clear) →
          t.alarm.latch = ⟨.noAlarm, false, false⟩ ∧ t.line = { s.line with
            queue := s.line.queue ++ ([Notice.alarm s.laneByte .noAlarm .cleared false] ++ acks).map Queued.fresh }) ∧
        (s.settings.latchMode = .clearing → s.alarm.latch.acknowledged = false → s.lane.passage ≠ .clear →
          t.alarm.latch = ⟨s.alarm.latch.cls, true, true⟩ ∧ t.line = { s.line with
            queue := s.line.queue ++ ([Notice.alarm s.laneByte s.alarm.latch.cls .acknowledged true] ++ acks).map Queued.fresh }) ∧
        (s.settings.latchMode = .clearing → s.alarm.latch.acknowledged = true →
          t.alarm.latch = s.alarm.latch ∧ t.line = { s.line with queue := s.line.queue ++ acks.map Queued.fresh }))) ∧
  ∀ (s : State) (order : TickOrder), s.startup.state = .listening ∨ s.startup.state = .joined →
    s.startup.straps.isSome = true → s.endPedestal = false → s.startup.keyStarted = true → s.lane.Sound →
    s.lane.started = true → s.lane.passage ≠ .clear →
    (s.lane.inner.broken = true → s.lane.inner.differ = true) → (s.lane.outer.broken = true → s.lane.outer.differ = true) →
    s.lane.passage ∈ [Passage.waitClear, .tagOnly, .outOpening, .inOpening] ∨ s.cadence.join ≠ .joined ∨
      s.startup.key = .service ∨ s.neighbours.clash = true → s.HasRoom 1 →
    ∃ t, exec (.filterTick false false (s.startup.key == .ack) (s.startup.key == .service) order) s = .next t ∧
      SameBut s [.cadence, .lane, .startup, .alarm, .line] t ∧ t.lane.passage = .clear ∧
      (s.settings.latchMode = .clearing → s.alarm.latch.clearPending = true →
        t.alarm = { s.alarm with latch := ⟨.noAlarm, false, false⟩ } ∧
        t.line = { s.line with queue := s.line.queue ++
          [⟨.alarm s.laneByte .noAlarm .cleared false, 0, false, false⟩] }) ∧
      (s.settings.latchMode = .latched ∨ s.alarm.latch.clearPending = false → t.alarm = s.alarm ∧ t.line = s.line)

/-- BEAM_STUCK: each beam broken for 1,500 frame starts is STUCK, the lane is in TAG_ONLY with the passage in progress and the clear run
gone; with neither beam so, nothing changes, and neither does a lane in TAG_ONLY whose due beams are STUCK already (R86). -/
def Obligations.StuckBeamsRaised : Prop :=
  ∀ s : State, ∃ t, exec .beamStuck s = .next t ∧ SameBut s [.lane] t ∧
    ((s.lane.inner.broken = true ∧ 1500 ≤ s.lane.inner.duration) ∨
      (s.lane.outer.broken = true ∧ 1500 ≤ s.lane.outer.duration) →
      t.lane = { s.lane with
        inner := { s.lane.inner with
          stuck := s.lane.inner.stuck || decide (s.lane.inner.broken = true ∧ 1500 ≤ s.lane.inner.duration) }
        outer := { s.lane.outer with
          stuck := s.lane.outer.stuck || decide (s.lane.outer.broken = true ∧ 1500 ≤ s.lane.outer.duration) }
        passage := .tagOnly
        startStamp := none
        clearRun := 0 }) ∧
    (s.lane.Sound → ¬(s.lane.inner.broken = true ∧ 1500 ≤ s.lane.inner.duration) →
      ¬(s.lane.outer.broken = true ∧ 1500 ≤ s.lane.outer.duration) →
      s.lane.passage ≠ .tagOnly → t.lane = s.lane) ∧
    (s.lane.Sound → s.lane.passage = .tagOnly →
      (s.lane.inner.broken = true → 1500 ≤ s.lane.inner.duration → s.lane.inner.stuck = true) →
      (s.lane.outer.broken = true → 1500 ≤ s.lane.outer.duration → s.lane.outer.stuck = true) → t.lane = s.lane)

/-! ### The row line -/

/-- BREAK_RECOGNIZED, after at least 20 bit times low: any assembly is discarded, the break is pending with the tick position and number
of its end, the quiet begins and the idle count starts again; a shorter low is no break. After the part's own break, of at least 24 bit
times, the transmitter stays in BREAK for 2 bit times and is then SENDING, driving the low bits of its CADENCE and counting no idle; in
the state held it stands as BREAK until the next command on the line (the model's choice of form, notes/assumptions/11.md); when the line
returns high more than 8 bit times after them, the mark is lost (R10, R12, R92 to R96). -/
def Obligations.BreaksRecognized : Prop :=
  ∀ (s : State) (wait low : Nat), s.clockRuns = true → s.line.rx ≠ .off →
    (low < 20 → ¬(s.line.tx = .brk ∧ s.line.sending = []) → exec (.breakRecognized ⟨wait, low⟩) s = .next s) ∧
    (20 ≤ low → ¬(s.line.tx = .brk ∧ s.line.sending = [] ∧ ∀ q ∈ s.line.queue, q.inTransmission = false) →
      ∃ t, exec (.breakRecognized ⟨wait, low⟩) s = .next t ∧ SameBut s [.cadence, .line] t ∧
        t.cadence.pendingBreak = some ⟨t.cadence.clock, t.tickPosition, s.cadence.superFrame, false⟩ ∧
        t.line.rx = .hunting ∧ t.line.quietFrom = some t.cadence.clock ∧ t.line.idleFrom = t.cadence.clock ∧
        t.line.lowFrom = none ∧
        (s.line.tx ≠ .brk ∨ s.line.sending ≠ [] →
          s.cadence.sameButTime { t.cadence with pendingBreak := s.cadence.pendingBreak } ∧
          t.cadence.clock = s.cadence.clock + wait * 2048 ∧ t.line.queue = s.line.queue ∧
          t.line.sending = s.line.sending ∧ t.line.txFrom = s.line.txFrom ∧ t.line.dropped = s.line.dropped ∧
          (s.line.tx ≠ .brk → t.line.tx = s.line.tx ∧ t.line.backoff = s.line.backoff)) ∧
        ∀ (q : Queued) (pre post : List Queued), s.line.tx = .brk → s.line.sending = [] →
          s.line.queue = pre ++ q :: post → (∀ x ∈ pre ++ post, x.inTransmission = false) → q.inTransmission = true →
          (s.cadence.clock + wait * 2048 ≤ s.line.txFrom + 32 * 2048 →
            s.cadence.sameButTime { t.cadence with pendingBreak := s.cadence.pendingBreak } ∧
            t.cadence.clock = max (s.cadence.clock + wait * 2048) (s.line.txFrom + 24 * 2048) ∧
            t.line = { s.line with
              rx := .hunting
              quietFrom := some t.cadence.clock
              idleFrom := t.cadence.clock
              lowFrom := none
              sending := q.notice.characters s.position
              txFrom := t.cadence.clock + 2 * 2048 } ∧
            ∀ n, (n < 2 → (t.waitBits n).transmitter = .brk ∧ (t.waitBits n).drivesLow = false ∧
                (t.waitBits n).idleCount = n) ∧
              (2 ≤ n → (t.waitBits n).transmitter = .sending ∧ (t.waitBits n).idleCount = 0 ∧
                (t.waitBits n).drivesLow =
                  (((q.notice.characters s.position).flatMap characterLevels)[n - 2]? == some false))) ∧
          (s.line.txFrom + 32 * 2048 < s.cadence.clock + wait * 2048 →
            t.cadence.clock = s.cadence.clock + wait * 2048 ∧ t.cadence.mark = .absent ∧
            t.line = { s.line with
              rx := .hunting
              quietFrom := some t.cadence.clock
              idleFrom := t.cadence.clock
              lowFrom := none
              tx := .waiting
              sending := []
              queue := pre ++ post }))

/-- CHARACTER_RECEIVED, the levels in the middles of 11 bit times being those of a character: a lead character begins an assembly and
pairs a break, the pairing reaching to 55 bit times after the break's end, where a lead begun at most 44 after it ends (the model's
choice, notes/assumptions/13.md); another character is taken into an assembly that waits for it, discarded while HUNTING, and discards
an assembly of a bad length or complete. Levels with a high start bit or a low stop bit are no character (R12, R93, R96, R102, R103,
R105). -/
def Obligations.CharactersAssembled : Prop :=
  (∀ (s : State) (wait : Nat) (levels : BitVec 10) (stop : Bool), levels.getLsbD 0 = true ∨ stop = false →
    exec (.characterReceived wait levels stop) s = .next s) ∧
  ∀ (s : State) (wait : Nat) (levels : BitVec 10) (byte : Byte) (lead : Bool), s.clockRuns = true → s.line.rx ≠ .off →
    (∀ i, i < 10 → levels.getLsbD i = (characterLevels (byte, lead)).getD i true) →
    ∃ t, exec (.characterReceived wait levels true) s = .next t ∧ SameBut s [.cadence, .line] t ∧
      t.cadence.clock = s.cadence.clock + wait * 2048 ∧
      s.cadence.sameButTime { t.cadence with pendingBreak := s.cadence.pendingBreak } ∧
      t.line = { s.line with
        idleFrom := t.cadence.clock
        lowFrom := none
        rx := t.line.rx
        tx := t.line.tx
        backoff := t.line.backoff } ∧
      (s.line.tx ≠ .brk → t.line.tx = s.line.tx ∧ t.line.backoff = s.line.backoff) ∧
      (s.line.tx = .brk → s.line.sending ≠ [] → s.line.txFrom ≤ t.cadence.clock →
        t.line.tx = .sending ∧ t.line.backoff = false) ∧
      (lead = true →
        t.line.rx = .assembling [byte] (t.line.tx == .sending) ∧
          (s.cadence.pendingBreak = none → t.cadence.pendingBreak = none) ∧
          ∀ b, s.cadence.pendingBreak = some b →
            (b.paired = false → t.cadence.clock ≤ b.moment + 55 * 2048 →
              t.cadence.pendingBreak = some { b with paired := true }) ∧
            (b.paired = true ∨ b.moment + 55 * 2048 < t.cadence.clock → t.cadence.pendingBreak = none)) ∧
      (lead = false → s.line.rx = .hunting →
        t.line.rx = .hunting ∧ t.cadence.pendingBreak = s.cadence.pendingBreak) ∧
      ∀ bytes own, lead = false → s.line.rx = .assembling bytes own →
        (badLength bytes = false → assemblyComplete bytes = false →
          t.line.rx = .assembling (bytes ++ [byte]) own ∧ t.cadence.pendingBreak = s.cadence.pendingBreak) ∧
        (badLength bytes = true ∨ assemblyComplete bytes = true →
          t.line.rx = .hunting ∧ t.cadence.pendingBreak = s.cadence.pendingBreak.filter (fun b => !b.paired))

/-- FRAMING_ERROR, RECEIVER_IDLE_TIMEOUT and NOTICE_INVALID discard the notice in assembly and a break paired with it, and the receiver
hunts; a framing error, 11 bit times with the start and the stop bit low on a line low for fewer than 20, discards any pending break (the
model's choice, notes/assumptions/13.md) and lets the idle count run from the return high (notes/assumptions/34.md); the idle count, run
as notes/assumptions/14.md has it, reaches no 11 while the line is low or the part itself sends; an invalid notice has no other effect.
QUIET_END ends the quiet 22 bit times after the break's end (R12, R93, R95, R96, R103, R104). -/
def Obligations.AssembliesDiscarded : Prop :=
  (∀ (s : State) (wait low : Nat) (levels : BitVec 11), s.clockRuns = true → s.line.rx ≠ .off →
    (levels.getLsbD 0 = true ∨ levels.getLsbD 10 = true ∨ 20 ≤ low → exec (.framingError ⟨wait, low, levels⟩) s = .next s) ∧
    (levels.getLsbD 0 = false → levels.getLsbD 10 = false → low < 20 →
      ∃ t, exec (.framingError ⟨wait, low, levels⟩) s = .next t ∧ SameBut s [.cadence, .line] t ∧
        t.cadence.clock = s.cadence.clock + wait * 2048 ∧ t.cadence.pendingBreak = none ∧
        s.cadence.sameButTime { t.cadence with pendingBreak := s.cadence.pendingBreak } ∧
        t.line = { s.line with rx := .hunting, idleFrom := t.cadence.clock, lowFrom := none })) ∧
  (∀ (s u : State) (bytes : List Byte) (own : Bool), u = s.readEdges 11 1 → s.clockRuns = true →
    s.line.rx = .assembling bytes own → assemblyComplete bytes = false →
    (u.line.lowFrom ≠ none ∨ s.line.tx = .sending ∨ (s.line.tx = .brk ∧ s.line.sending ≠ []) →
      exec .receiverIdleTimeout s = .next u) ∧
    (u.line.lowFrom = none → ¬(s.line.tx = .sending ∨ (s.line.tx = .brk ∧ s.line.sending ≠ [])) →
      ∃ t, exec .receiverIdleTimeout s = .next t ∧ SameBut u [.cadence, .line] t ∧
        t.cadence.clock = max u.cadence.clock (u.line.idleFrom + 11 * 2048) ∧ t.line = { u.line with rx := .hunting } ∧
        t.cadence.pendingBreak = s.cadence.pendingBreak.filter (fun b => !b.paired))) ∧
  (∀ (s : State) (bytes : List Byte) (own : Bool), s.line.rx = .assembling bytes own →
    badLength bytes = true ∨ (assemblyComplete bytes = true ∧ assemblyNotice bytes = none) →
    ∃ t, exec .noticeInvalid s = .next t ∧ SameBut s [.cadence, .line] t ∧ t.line = { s.line with rx := .hunting } ∧
      t.cadence = { s.cadence with pendingBreak := s.cadence.pendingBreak.filter (fun b => !b.paired) }) ∧
  ∀ (s : State) (q : Nat), s.clockRuns = true → s.line.quietFrom = some q →
    ∃ t, exec .quietEnd s = .next t ∧ SameBut s [.cadence, .line] t ∧ s.cadence.sameButTime t.cadence ∧
      t.cadence.clock = max s.cadence.clock (q + 22 * 2048) ∧ t.line = { s.line with quietFrom := none }

/-- NOTICE_START: when the idle count reaches the gap, 12 + 2p bit times or 12 + 13p under a back-off, the notice of highest priority in
the queue, and the oldest of that priority, begins, and a back-off lapses; while the line is low, a quiet runs, a mark is pending or the
transmitter is busy, none begins. An edge in the last bit time of the gap does not hold the start: the part begins too (the model's
reading, notes/assumptions/14.md). While it sends it counts no idle and drives the low bits of its characters (R92, R96, R97, R98,
R110). -/
def Obligations.NoticeBegins : Prop :=
  ∀ (s u : State) (gap : Nat), gap = (if s.line.backoff then 12 + 13 * s.position else 12 + 2 * s.position) →
    u = s.readEdges gap 2048 → s.clockRuns = true →
    (∀ e es, s.line.edges = e :: es → (∀ x ∈ e :: es, s.line.idleFrom ≤ x.moment) → s.line.lowFrom = none →
      max s.cadence.clock (s.line.idleFrom + gap * 2048) < e.moment + 2048 → u = s) ∧
    (u.line.lowFrom ≠ none ∨ u.line.quietFrom ≠ none ∨ u.cadence.mark = .pending ∨ u.line.tx ≠ .waiting →
      exec .noticeStart s = .next u) ∧
    (u.line.tx = .waiting → u.line.quietFrom = none → u.line.lowFrom = none → u.cadence.mark ≠ .pending →
      (∃ q ∈ u.line.queue, q.notice.priority ≠ 1) →
      ∃ t, exec .noticeStart s = .next t ∧ SameBut u [.cadence, .line] t ∧ u.cadence.sameButTime t.cadence ∧
        t.cadence.clock = max u.cadence.clock (u.line.idleFrom + gap * 2048) ∧
        (∀ n, (t.waitBits n).idleCount = 0 ∧
          (t.waitBits n).drivesLow = ((t.line.sending.flatMap characterLevels)[n]? == some false)) ∧
        ∃ (pre post : List Queued) (q : Queued), u.line.queue = pre ++ q :: post ∧ q.notice.priority ≠ 1 ∧
          (∀ x ∈ pre, x.notice.priority ≠ 1 → q.notice.priority < x.notice.priority) ∧
          (∀ x ∈ post, x.notice.priority ≠ 1 → q.notice.priority ≤ x.notice.priority) ∧
          t.line = { u.line with
            tx := .sending
            sending := q.notice.characters s.position
            txFrom := t.cadence.clock
            idleFrom := t.cadence.clock
            backoff := false
            queue := pre ++ { q with inTransmission := true } :: post })

/-- COLLISION, in the middle of a bit in which the part sends a 1: the transmitter stops and waits under back-off. The notice keeps its
place with one more failed attempt; at its eighth it is removed with a drop report, for which a CALL's adjudication is weighed at once
with partner evidence NONE (what an older CALL of its call id has brought stays in its candidates, the model's choice,
notes/assumptions/41.md), a final VERDICT part's hold starts, and the other kinds change nothing; withdrawn, it is removed with none; a
CADENCE is removed at its first with none, and its mark is lost (R98, R99, R109, R130, R145). -/
def Obligations.CollisionsCounted : Prop :=
  ∀ (s : State) (bit : Nat) (q : Queued) (pre post : List Queued), s.clockRuns = true →
    s.line.tx = .sending ∨ (s.line.tx = .brk ∧ s.line.sending ≠ []) → s.line.sentLevel bit = some true →
    s.line.dropped = [] → s.line.queue = pre ++ q :: post → (∀ x ∈ pre ++ post, x.inTransmission = false) →
    q.inTransmission = true →
    ∃ t, exec (.collision bit) s = .next t ∧ SameBut s [.cadence, .line, .adj, .sightings] t ∧
      t.cadence.clock = max s.cadence.clock (s.line.txFrom + bit * 2048 + 1024) ∧
      t.line = { s.line with
        tx := .waiting
        sending := []
        backoff := true
        idleFrom := t.cadence.clock
        lowFrom := some t.cadence.clock
        rx := s.line.rx.notOwn
        queue := t.line.queue
        dropped := t.line.dropped } ∧
      (q.notice.priority ≠ 1 → q.withdrawn = false → q.attempts < 7 →
        SameBut s [.cadence, .line] t ∧ s.cadence.sameButTime t.cadence ∧
        t.line.dropped = [] ∧ t.line.queue = pre ++ { q with attempts := q.attempts + 1, inTransmission := false } :: post) ∧
      (q.notice.priority ≠ 1 → q.withdrawn = true →
        SameBut s [.cadence, .line] t ∧ s.cadence.sameButTime t.cadence ∧ t.line.dropped = [] ∧ t.line.queue = pre ++ post) ∧
      (q.notice.priority = 1 →
        SameBut s [.cadence, .line] t ∧ t.cadence.mark = .absent ∧ t.line.dropped = [] ∧ t.line.queue = pre ++ post) ∧
      (q.notice.priority ≠ 1 → q.withdrawn = false → 7 ≤ q.attempts →
        s.cadence.sameButTime t.cadence ∧
        (∀ (id lane : Byte) (part : BitVec 4) (es : List VerdictEntry), q.notice = .verdict id lane part true es →
          t.line.dropped = [] ∧ t.line.queue = pre ++ post ∧ t.sightings = s.sightings ∧
            t.adj = { s.adj with list := s.adj.list.map (fun a =>
              if a.callId = id ∧ a.state = .holding ∧ a.hold = none then { a with hold := some 3 } else a) }) ∧
        ((∀ id lane part es, q.notice ≠ .verdict id lane part true es) → (∀ id lane a b, q.notice ≠ .call id lane a b) →
          SameBut s [.cadence, .line] t ∧ t.line.dropped = [] ∧ t.line.queue = pre ++ post) ∧
        ∀ (id lane : Byte) (first last : Stamp), q.notice = .call id lane first last →
          ((∀ a ∈ s.adj.list, ¬(a.callId = id ∧ a.state = .collecting)) →
            SameBut s [.cadence, .line] t ∧ t.line.dropped = [] ∧ t.line.queue = pre ++ post) ∧
          ∀ a ∈ s.adj.list, a.callId = id → a.state = .collecting → (∀ x ∈ s.adj.list, x.callId = id → x = a) →
            a.candidates.length ≤ 24 → pre.length + post.length + 3 ≤ 12 →
            t.line.dropped = [] ∧ WeighedTo (s.withLine { s.line with queue := pre ++ post }) .none
              (s.scales.weigh { a with evidence := .nothing }) t)

/-- NOTICE_SENT, after the last bit time of its characters: the notice leaves the queue and the transmitter waits; the sent report of a
CALL starts its adjudication's deadline at 5 and that of a final VERDICT part the hold at 3; a sent CADENCE ends its mark and takes its
own break with it; the part's own receiver discards the notice (R10, R12, R100, R105, R130, R145). -/
def Obligations.NoticesSent : Prop :=
  ∀ (s : State) (q : Queued) (pre post : List Queued), s.clockRuns = true →
    s.line.tx = .sending ∨ (s.line.tx = .brk ∧ s.line.sending ≠ []) →
    s.line.dropped = [] → s.line.queue = pre ++ q :: post → (∀ x ∈ pre ++ post, x.inTransmission = false) →
    q.inTransmission = true →
    ∃ t, exec .noticeSent s = .next t ∧ SameBut s [.cadence, .line, .adj] t ∧
      t.cadence.clock = max s.cadence.clock (s.line.txFrom + 11 * s.line.sending.length * 2048) ∧
      t.line = { s.line with
        tx := .waiting
        sending := []
        queue := pre ++ post
        backoff := if s.line.tx = .sending then s.line.backoff else false
        idleFrom := t.cadence.clock
        lowFrom := none
        rx := t.line.rx } ∧
      (∀ bytes, s.line.rx = .assembling bytes true → t.line.rx = .hunting) ∧
      ((∀ bytes, s.line.rx ≠ .assembling bytes true) → t.line.rx = s.line.rx) ∧
      (∀ id lane a b, q.notice = .call id lane a b →
        t.adj = { s.adj with list := s.adj.list.map (fun x =>
          if x.callId = id ∧ x.state = .collecting then { x with deadline := some 5 } else x) }) ∧
      (∀ id lane part es, q.notice = .verdict id lane part true es →
        t.adj = { s.adj with list := s.adj.list.map (fun x =>
          if x.callId = id ∧ x.state = .holding ∧ x.hold = none then { x with hold := some 3 } else x) }) ∧
      (∀ id lane part es, q.notice = .verdict id lane part false es → t.adj = s.adj) ∧
      (q.notice.priority = 1 → t.adj = s.adj ∧ t.cadence.mark = .absent ∧ t.cadence.pendingBreak = none) ∧
      (q.notice.priority = 3 ∨ q.notice.priority = 4 ∨ 6 ≤ q.notice.priority → t.adj = s.adj)

/-- An offer to a queue of 12: of the offered notice and the queued ones not in transmission, the one of lowest priority is dropped, and
the newest of that priority; the others keep their order, and the notice in transmission stays (R109, R110, R111). -/
def Obligations.FullQueueDropsLowest : Prop :=
  ∀ (queue : List Queued) (q : Queued), 12 ≤ queue.length → q.inTransmission = false →
    ∃ (pre post : List Queued) (d : Queued), queue ++ [q] = pre ++ d :: post ∧ d.inTransmission = false ∧
      offerTo queue q = (pre ++ post, some d.notice) ∧
      (∀ x ∈ pre, x.inTransmission = false → x.notice.priority ≤ d.notice.priority) ∧
      ∀ x ∈ post, x.inTransmission = false → x.notice.priority < d.notice.priority

/-- The parts of a body cut for several notices: the entries in their order, at most `n` to a part, numbered from 0, the last one and only
it final; no entries give one part with none (R131, R141, R148). -/
def Obligations.PartsCutInOrder : Prop :=
  ∀ (α : Type) (n : Nat) (l : List α), 0 < n →
    ((numberParts (partsOf n l)).flatMap (fun x => x.2.2) = l) ∧
    (∀ x ∈ numberParts (partsOf n l), x.2.2.length ≤ n) ∧
    ((numberParts (partsOf n l)).length = max 1 ((l.length + n - 1) / n)) ∧
    ∀ i x, (numberParts (partsOf n l))[i]? = some x →
      x.1 = BitVec.ofNat 4 i ∧ (x.2.1 = true ↔ i + 1 = (numberParts (partsOf n l)).length)

/-! ### Cadence heard -/

/-- RECEIVE_CADENCE while LISTENING, paired with its break: the part adopts the number, begins frame 0 at the delay plus 3 plus the ticks
since the break, rounded down (the model's choice, notes/assumptions/9.md), with the mark withheld, and is JOINED, its RUN request raised
unless the key stands in SERVICE. A number other than the one held empties the sighting table, the claims and the adjudications, and
withdraws their notices and the EVIDENCE from the queue (notes/assumptions/30.md) (R6, R8, R9, R12, R17, R20, R82, R132, R149). -/
def Obligations.CadenceAdoptedWhileListening : Prop :=
  ∀ (s : State) (p : Nat) (n : BitVec 16) (d : Byte) (f g : Bool) (b : PendingBreak),
    s.incoming = some (p, .cadence n d f g) → s.cadence.join = .listening → s.startup.state = .listening →
    s.cadence.pendingBreak = some b → b.paired = true → s.field.running = false → s.field.request = none →
    ∃ t, exec .receiveCadence s = .next t ∧ SameBut s (.startup :: atFrameStart) t ∧
      t.startup = { s.startup with state := .joined } ∧ t.line.rx = .hunting ∧
      t.cadence = { s.cadence with
        join := .joined
        frameIdx := 0
        superFrame := n
        offset := d.toNat + 3 + (s.cadence.clock - b.moment) / 15625
        startOffset := d.toNat + 3 + (s.cadence.clock - b.moment) / 15625
        adoptedFrame := true
        skips := []
        slotKey := BitVec.ofNat 4 (9 * n.toNat)
        lastQualifying := some s.freeRun
        pendingBreak := none
        mark := .absent
        markFrame := n
        selfLed := false
        frameOut := true
        slotsEnded := 0
        coilChecked := false } ∧
      t.field.running = false ∧ t.field.drive = false ∧
      t.field.request = (if s.startup.keyStarted = true ∧ s.startup.key = .service then none else some .run) ∧
      (s.lane.passage.inProgress = true → t.lane.startStamp = some ⟨n, 0⟩) ∧
      (n ≠ s.cadence.superFrame → t.sightings = [] ∧ t.adj.list = [] ∧ t.adj.claims = []) ∧
      (n = s.cadence.superFrame → t.sightings.map Record.serial = s.sightings.map Record.serial) ∧
      (s.line.dropped = [] → 1 ≤ s.position →
        (n ≠ s.cadence.superFrame → t.line = { s.line with rx := .hunting, queue := s.queueWithdrawn }) ∧
        (n = s.cadence.superFrame → p ≠ s.position → t.line = { s.line with rx := .hunting }))

/-- RECEIVE_CADENCE while JOINED, with its paired break at position p: E is p − (d + 3), D is E, less 16,384 from 8,192 on, and M the
number recorded, one more from 8,192 on. When N − M is not 0..32,767 nothing is adopted; when it is and D is 0..512 the phase is kept, a
pending mark is abandoned and the number becomes N; a number other than M empties the sighting table, the claims and the adjudications,
and withdraws their notices and the EVIDENCE from the queue (R12, R13, R14, R17, R132, R149). -/
def Obligations.CadenceJudged : Prop :=
  ∀ (s : State) (p : Nat) (n m : BitVec 16) (d : Byte) (f g : Bool) (b : PendingBreak) (e dd : Int),
    s.incoming = some (p, .cadence n d f g) → p ≠ s.position → s.cadence.join = .joined →
    s.cadence.pendingBreak = some b → b.paired = true → s.line.dropped = [] → e = (b.position : Int) - (d.toNat + 3) →
    (e < 8192 → dd = e ∧ m = b.superFrame) → (8192 ≤ e → dd = e - 16384 ∧ m = b.superFrame + 1) →
    ∃ t, exec .receiveCadence s = .next t ∧
      (32767 < (n - m).toNat →
        SameBut s [.cadence, .line, .neighbours] t ∧ t.cadence = { s.cadence with pendingBreak := none } ∧
          t.line = { s.line with rx := .hunting }) ∧
      ((n - m).toNat ≤ 32767 → 0 ≤ dd → dd ≤ 512 →
        SameBut s [.cadence, .line, .neighbours, .adj, .sightings, .lane] t ∧
        t.cadence = { s.cadence with
          pendingBreak := none
          lastQualifying := some s.freeRun
          selfLed := false
          mark := if s.cadence.mark = .pending then .absent else s.cadence.mark
          superFrame := if n = m then s.cadence.superFrame else n } ∧
        (n = m → SameBut s [.cadence, .line, .neighbours] t ∧ t.line = { s.line with rx := .hunting }) ∧
        (n ≠ m → t.sightings = [] ∧ t.adj = { s.adj with list := [], claims := [] } ∧
          t.line = { s.line with rx := .hunting, queue := s.queueWithdrawn } ∧
          (s.lane.passage.inProgress = true → t.lane = { s.lane with startStamp := some t.stamp }) ∧
          (s.lane.passage.inProgress = false → t.lane = s.lane)))

/-- RECEIVE_CADENCE while JOINED, adopted with D outside 0..512, D and M as for CadenceJudged: from −512 to −1 the tick position moves
forward, within frame 0 when the break was recognized in it, to a new frame 0 from a later frame, and within a frame 0 that has begun by
counting since the break; further away the drive stops and a new frame 0 begins. Its offset is the delay plus 3 plus the ticks since the
break, rounded down; that and the choice of the form are the model's (notes/assumptions/9.md and 10.md), as is the move by −D from where
the part stands for a break carried over from listening, with E below 0 (notes/assumptions/33.md). The frame is marked begun by adoption,
a pending mark is lost, and a running field is driven from the new offset. A number other than M empties and withdraws as in
CadenceJudged, also what the new frame 0 would make due (the model's order, notes/assumptions/39.md) (R6, R11, R13, R15, R16, R17, R21,
R22, R132, R149). -/
def Obligations.CadenceMovesPhase : Prop :=
  ∀ (s : State) (p : Nat) (n m : BitVec 16) (d : Byte) (f g : Bool) (b : PendingBreak) (e dd : Int) (place : Nat),
    s.incoming = some (p, .cadence n d f g) → p ≠ s.position → s.cadence.join = .joined → s.startup.state = .joined →
    s.cadence.pendingBreak = some b → b.paired = true → e = (b.position : Int) - (d.toNat + 3) →
    (e < 8192 → dd = e ∧ m = b.superFrame) → (8192 ≤ e → dd = e - 16384 ∧ m = b.superFrame + 1) →
    (n - m).toNat ≤ 32767 → place = d.toNat + 3 + (s.cadence.clock - b.moment) / 15625 →
    ∃ t, exec .receiveCadence s = .next t ∧ SameBut s atFrameStart t ∧
      t.cadence.lastQualifying = some s.freeRun ∧ t.cadence.pendingBreak = none ∧ t.cadence.selfLed = false ∧
      t.cadence.join = .joined ∧ t.cadence.clock = s.cadence.clock ∧
      (-512 ≤ dd → dd < 0 → e < 0 →
        t.cadence.offset = s.cadence.offset + (-dd).toNat ∧ t.cadence.frameIdx = s.cadence.frameIdx ∧
          t.cadence.skips = s.cadence.skips ++ [(s.cadence.offset, (-dd).toNat)] ∧ t.cadence.adoptedFrame = true ∧
          t.cadence.mark ≠ .pending ∧ t.cadence.superFrame = (if n = m then s.cadence.superFrame else n) ∧
          t.field = s.field) ∧
      (-512 ≤ dd → dd < 0 → 0 ≤ e → s.cadence.frameIdx = 0 →
        t.cadence.offset = max s.cadence.offset place ∧ t.cadence.frameIdx = 0 ∧
          t.cadence.skips = s.cadence.skips ++ [(s.cadence.offset, place - s.cadence.offset)] ∧
          t.cadence.startOffset = s.cadence.startOffset ∧ t.cadence.adoptedFrame = true ∧ t.cadence.mark ≠ .pending ∧
          t.cadence.superFrame = (if n = m then s.cadence.superFrame else n) ∧ t.field = s.field) ∧
      ((-512 ≤ dd ∧ dd < 0 ∧ 0 ≤ e ∧ s.cadence.frameIdx ≠ 0) ∨ dd < -512 ∨ 512 < dd →
        t.cadence.frameIdx = 0 ∧ t.cadence.superFrame = n ∧ t.cadence.offset = place ∧
          t.cadence.startOffset = t.cadence.offset ∧ t.cadence.skips = [] ∧ t.cadence.adoptedFrame = true ∧
          t.cadence.mark = .absent ∧ t.cadence.frameOut = true ∧ t.cadence.slotKey = BitVec.ofNat 4 (9 * n.toNat) ∧
          t.field.request = none ∧ (t.field.drive = true ↔ t.field.running = true ∧ t.cadence.offset < 320)) ∧
      (n ≠ m → t.sightings = [] ∧ t.adj.list = [] ∧ t.adj.claims = []) ∧
      (s.line.dropped = [] → 1 ≤ s.position →
        t.line = { s.line with rx := .hunting, queue := if n = m then s.line.queue else s.queueWithdrawn })

/-! ### Notices heard -/

/-- A notice of any kind from another station, taken by the command of its kind: it makes its sender's kept record PRESENT, its silence
and the line silence 0, and leaves the other record and the clash condition; a STATUS and an ALARM of the west neighbour set its reported
latch, a STATUS of it its lane busy, and a STATUS of the east neighbour its west face fault, and the other kinds report nothing. Of the
cadence unit a notice other than a CADENCE takes only a break paired with it. A CADENCE that begins a new frame 0, while LISTENING or in
the cases of CadenceMovesPhase, has the silences and a standing clash counted by that frame 0 after its sender is heard, the model's
choice of order (notes/assumptions/35.md) (R12, R104, R106, R116, R117, R118, R120, R121). -/
def Obligations.NeighboursHeard : Prop :=
  (∀ (s : State) (p : Nat) (notice : Notice) (c : Instr), s.incoming = some (p, notice) → p ≠ s.position →
    ((∃ n f k a, notice = .status n f k a ∧ c = .receiveStatus) ∨
      (∃ lane k ch a, notice = .alarm lane k ch a ∧ c = .receiveAlarm) ∨
      (∃ i e, notice = .journal i e ∧ c = .receiveJournal)) →
    ∃ t, exec c s = .next t ∧ SameBut s [.cadence, .line, .neighbours] t ∧
      t.line = { s.line with rx := .hunting } ∧
      t.cadence = { s.cadence with pendingBreak := s.cadence.pendingBreak.filter (fun b => !b.paired) } ∧
      (t.neighbours.lineSilence = 0 ∧ t.neighbours.lineSilent = false ∧ t.neighbours.clash = s.neighbours.clash ∧
        t.neighbours.clashCount = s.neighbours.clashCount) ∧
      (¬(2 ≤ s.position ∧ p + 1 = s.position) → t.neighbours.west = s.neighbours.west) ∧
      (¬(s.position ≤ 8 ∧ p = s.position + 1) → t.neighbours.east = s.neighbours.east) ∧
      (2 ≤ s.position → p + 1 = s.position →
        t.neighbours.west.presence = .present ∧ t.neighbours.west.silence = 0 ∧
        (∀ n f k a, notice = .status n f k a → t.neighbours.west = ⟨.present, 0, some f.laneBusy, k, a⟩) ∧
        (∀ lane k ch a, notice = .alarm lane k ch a → lane.toNat = p →
          t.neighbours.west = ⟨.present, 0, s.neighbours.west.laneBusy, k, a⟩) ∧
        (∀ lane k ch a, notice = .alarm lane k ch a → lane.toNat ≠ p →
          t.neighbours.west = s.neighbours.west.heard) ∧
        (∀ i e, notice = .journal i e → t.neighbours.west = s.neighbours.west.heard)) ∧
      (s.position ≤ 8 → p = s.position + 1 →
        (∀ n f k a, notice = .status n f k a → t.neighbours.east = ⟨.present, 0, some f.westFault⟩) ∧
        ((∀ n f k a, notice ≠ .status n f k a) → t.neighbours.east = s.neighbours.east.heard))) ∧
  ∀ (s : State) (p : Nat) (notice : Notice) (still begun : Neighbours), s.incoming = some (p, notice) → p ≠ s.position →
    still = { s.neighbours with
      lineSilence := 0
      lineSilent := false
      west := if 2 ≤ s.position ∧ p + 1 = s.position then { s.neighbours.west with presence := .present, silence := 0 }
        else s.neighbours.west
      east := if s.position ≤ 8 ∧ p = s.position + 1 then { s.neighbours.east with presence := .present, silence := 0 }
        else s.neighbours.east } →
    begun = { still with
      lineSilence := 1
      clashCount := if s.neighbours.clash then min 20 (s.neighbours.clashCount + 1) else s.neighbours.clashCount
      west := { still.west with
        silence := if 2 ≤ s.position then min 255 (still.west.silence + 1) else still.west.silence }
      east := { still.east with
        silence := if s.position ≤ 8 then min 255 (still.east.silence + 1) else still.east.silence } } →
    ∃ t, exec (receiveOf notice) s = .next t ∧ SameBut s (mayChange (receiveOf notice)) t ∧ t.line.rx = .hunting ∧
      ((∀ n d f g, notice ≠ .cadence n d f g) →
        t.cadence = { s.cadence with pendingBreak := s.cadence.pendingBreak.filter (fun b => !b.paired) } ∧
        ((∀ n f k a, notice ≠ .status n f k a) → (∀ lane k ch a, notice ≠ .alarm lane k ch a) → t.neighbours = still)) ∧
      ∀ n d f g, notice = .cadence n d f g →
        ((∀ b, s.cadence.pendingBreak = some b → b.paired = false) ∨ s.cadence.join = .notJoined →
          t.neighbours = still ∧ t.cadence = { s.cadence with pendingBreak := none }) ∧
        ∀ b, s.cadence.pendingBreak = some b → b.paired = true →
          (s.cadence.join = .listening → t.neighbours = begun) ∧
          ∀ (m : BitVec 16) (e dd : Int), s.cadence.join = .joined → e = (b.position : Int) - (d.toNat + 3) →
            (e < 8192 → dd = e ∧ m = b.superFrame) → (8192 ≤ e → dd = e - 16384 ∧ m = b.superFrame + 1) →
            (32767 < (n - m).toNat ∨ (0 ≤ dd ∧ dd ≤ 512) ∨ (-512 ≤ dd ∧ dd < 0 ∧ (e < 0 ∨ s.cadence.frameIdx = 0)) →
              t.neighbours = still) ∧
            ((n - m).toNat ≤ 32767 →
              (-512 ≤ dd ∧ dd < 0 ∧ 0 ≤ e ∧ s.cadence.frameIdx ≠ 0) ∨ dd < -512 ∨ 512 < dd → t.neighbours = begun)

/-- A notice of any kind under the part's own position is a clash trigger: the condition stands with its count at 0; newly set, it
abandons every adjudication with no notice of it left in the queue but one in transmission, and withdraws the responder's EVIDENCE. Then
the notice has its own effect: the resets and claims of a VERDICT, the entries of a SETTLEMENT, the answer to a JOURNAL CALL, and the
adoption of a CADENCE, as from another station by R8 and R12 to R17: while LISTENING frame 0 of its number begins; while JOINED, with E, D
and M as for CadenceJudged, it does not qualify, keeps the phase, moves it forward in the frame in progress, or begins a new frame 0. A
new frame 0 counts the clash and the line silence to 1 (notes/assumptions/35.md), and otherwise both are 0; the offset adopted and the
choice of the form are those of notes/assumptions/9.md and 10.md, and for a break carried over from listening of notes/assumptions/33.md;
what the new frame 0 would make due is abandoned first (notes/assumptions/39.md). A STATUS, ALARM, JOURNAL, CALL, EVIDENCE or ACK of the
own position has no other effect (R13, R66, R105, R109, R121, R122, R132, R143, R149, R153, R162, R174). -/
def Obligations.ClashTriggered : Prop :=
  (∀ (s : State) (notice : Notice) (c : Instr), s.incoming = some (s.position, notice) →
    (∀ n d f g, notice ≠ .cadence n d f g) →
    ((∃ n f k a, notice = .status n f k a ∧ c = .receiveStatus) ∨ (∃ i l a b, notice = .call i l a b ∧ c = .receiveCall) ∨
      (∃ i p f es, notice = .evidence i p f es ∧ c = .receiveEvidence) ∨
      (∃ i l p f es, notice = .verdict i l p f es ∧ c = .receiveVerdict) ∨
      (∃ i l p f es, notice = .settlement i l p f es ∧ c = .receiveSettlement) ∨
      (∃ lane k ch a, notice = .alarm lane k ch a ∧ c = .receiveAlarm) ∨ (∃ lane, notice = .ack lane ∧ c = .receiveAck) ∨
      (∃ x i, notice = .journalCall x i ∧ c = .receiveJournalCall) ∨ (∃ i e, notice = .journal i e ∧ c = .receiveJournal)) →
    ∃ u t, exec c s = .next t ∧ SameBut s [.cadence, .line, .neighbours, .adj] u ∧
      u.neighbours = { s.neighbours with clash := true, clashCount := 0, lineSilence := 0, lineSilent := false } ∧
      (s.neighbours.clash = true → u.adj = s.adj ∧ u.line = { s.line with rx := .hunting }) ∧
      (s.neighbours.clash = false →
        u.adj = { s.adj with list := [] } ∧ u.line = { s.line with rx := .hunting, queue := u.line.queue } ∧
          ∀ q, q.withdrawn = false → (q ∈ u.line.queue ↔ q ∈ s.line.queue ∧
            ¬(isEvidence q.notice = true ∨ ofCalls (s.adj.list.map Adjudication.callId) q.notice = true))) ∧
      (c ∈ [Instr.receiveStatus, .receiveAlarm, .receiveJournal, .receiveEvidence, .receiveAck] → t = u) ∧
      (c = .receiveCall → t = u) ∧
      (∀ i l p f es, notice = .verdict i l p f es →
        SameBut u [.sightings, .adj] t ∧ t.adj.nextCall = s.adj.nextCall ∧ (s.neighbours.clash = false → t.adj.list = []) ∧
          t.sightings = resetRecords s.stamp.next (es.map VerdictEntry.serial) s.sightings ∧
          t.adj.claims = addClaims (es.map (fun e => ⟨e.serial, l.toNat, e.share.toNat, i, 10⟩)) s.adj.claims) ∧
      (∀ i l p f es, notice = .settlement i l p f es →
        SameBut u [.carried] t ∧ t.carried = es.foldl (applySettled s.settings.grace) s.carried) ∧
      ∀ x i, notice = .journalCall x i →
        (x.toNat ≠ s.position → t = u) ∧
        (x.toNat = s.position → s.HasRoom 1 → SameBut u [.alarm, .line] t ∧ t.alarm.latch = s.alarm.latch ∧
          t.alarm.journal = s.alarm.journal ∧ ∀ j : Nat, j = (if i = 255 then s.alarm.cursor else i.toNat) →
            t.alarm.cursor = (if j < s.alarm.journal.length ∧ j ≠ 31 then j + 1 else 0) ∧
            t.line = { u.line with queue := u.line.queue ++ [⟨.journal (BitVec.ofNat 8 j) ((s.alarm.journal[j]?).map
              (fun e => ⟨e.serial, BitVec.ofNat 8 e.lane, e.kind, e.cls, e.stamp, e.acknowledged⟩)), 0, false, false⟩] })) ∧
  ∀ (s : State) (n : BitVec 16) (d : Byte) (f g : Bool) (still begun : Neighbours),
    s.incoming = some (s.position, .cadence n d f g) →
    still = { s.neighbours with clash := true, clashCount := 0, lineSilence := 0, lineSilent := false } →
    begun = { s.neighbours with
      clash := true
      clashCount := 1
      lineSilence := 1
      lineSilent := false
      west := { s.neighbours.west with
        silence := if 2 ≤ s.position then min 255 (s.neighbours.west.silence + 1) else s.neighbours.west.silence }
      east := { s.neighbours.east with
        silence := if s.position ≤ 8 then min 255 (s.neighbours.east.silence + 1) else s.neighbours.east.silence } } →
    ∃ t, exec .receiveCadence s = .next t ∧ SameBut s (.startup :: atFrameStart) t ∧ t.line.rx = .hunting ∧
      (s.neighbours.clash = false → t.adj.list = []) ∧
      ((∀ b, s.cadence.pendingBreak = some b → b.paired = false) →
        t.neighbours = still ∧ t.cadence = { s.cadence with pendingBreak := none } ∧
        (s.line.dropped = [] → SameBut s [.cadence, .line, .neighbours, .adj] t ∧
          (s.neighbours.clash = true → t.adj = s.adj ∧ t.line = { s.line with rx := .hunting }) ∧
          (s.neighbours.clash = false →
            t.adj = { s.adj with list := [] } ∧ t.line = { s.line with rx := .hunting, queue := t.line.queue } ∧
              ∀ q, q.withdrawn = false → (q ∈ t.line.queue ↔ q ∈ s.line.queue ∧
                ¬(isEvidence q.notice = true ∨ ofCalls (s.adj.list.map Adjudication.callId) q.notice = true))))) ∧
      ∀ (b : PendingBreak) (place : Nat) (zero : Cadence), s.cadence.pendingBreak = some b → b.paired = true →
        place = d.toNat + 3 + (s.cadence.clock - b.moment) / 15625 →
        zero = { s.cadence with
          join := .joined
          frameIdx := 0
          superFrame := n
          offset := place
          startOffset := place
          adoptedFrame := true
          skips := []
          slotKey := BitVec.ofNat 4 (9 * n.toNat)
          lastQualifying := some s.freeRun
          pendingBreak := none
          mark := .absent
          markFrame := n
          selfLed := false
          frameOut := true
          slotsEnded := 0
          coilChecked := false } →
        (s.cadence.join = .listening → s.startup.state = .listening →
          t.startup = { s.startup with state := .joined } ∧ t.cadence = zero ∧ t.neighbours = begun ∧
            (s.line.dropped = [] → 1 ≤ s.position → t.line = { s.line with
              rx := .hunting
              queue := if s.neighbours.clash = true ∧ n = s.cadence.superFrame then s.line.queue else s.queueWithdrawn })) ∧
        ∀ (m : BitVec 16) (e dd : Int), s.cadence.join = .joined → s.startup.state = .joined →
          e = (b.position : Int) - (d.toNat + 3) → (e < 8192 → dd = e ∧ m = b.superFrame) →
          (8192 ≤ e → dd = e - 16384 ∧ m = b.superFrame + 1) →
          t.startup = s.startup ∧
          (s.line.dropped = [] → 1 ≤ s.position → t.line = { s.line with
            rx := .hunting
            queue := if s.neighbours.clash = true ∧ (n = m ∨ 32767 < (n - m).toNat) then s.line.queue
              else s.queueWithdrawn }) ∧
          (32767 < (n - m).toNat →
            t.neighbours = still ∧ t.cadence = { s.cadence with pendingBreak := none } ∧ t.field = s.field ∧
              t.lane = s.lane) ∧
          ((n - m).toNat ≤ 32767 → 0 ≤ dd → dd ≤ 512 →
            t.neighbours = still ∧ t.field = s.field ∧
            t.cadence = { s.cadence with
              pendingBreak := none
              lastQualifying := some s.freeRun
              selfLed := false
              mark := if s.cadence.mark = .pending then .absent else s.cadence.mark
              superFrame := if n = m then s.cadence.superFrame else n }) ∧
          ((n - m).toNat ≤ 32767 → -512 ≤ dd → dd < 0 → e < 0 ∨ s.cadence.frameIdx = 0 →
            ∀ k : Nat, k = (if e < 0 then (-dd).toNat else place - s.cadence.offset) →
            t.neighbours = still ∧ t.field = s.field ∧
            t.cadence = { s.cadence with
              pendingBreak := none
              lastQualifying := some s.freeRun
              selfLed := false
              offset := s.cadence.offset + k
              skips := s.cadence.skips ++ [(s.cadence.offset, k)]
              adoptedFrame := true
              mark := if s.cadence.mark = .pending then .absent else s.cadence.mark
              superFrame := if n = m then s.cadence.superFrame else n }) ∧
          ((n - m).toNat ≤ 32767 →
            (-512 ≤ dd ∧ dd < 0 ∧ 0 ≤ e ∧ s.cadence.frameIdx ≠ 0) ∨ dd < -512 ∨ 512 < dd →
            t.neighbours = begun ∧ t.cadence = zero ∧ t.field.request = none ∧
              (t.field.drive = true ↔ t.field.running = true ∧ place < 320)) ∧
          ((n - m).toNat ≤ 32767 → n ≠ m → t.sightings = [] ∧ t.adj.list = [] ∧ t.adj.claims = [] ∧
            (s.lane.passage.inProgress = true → t.lane.startStamp = some t.stamp))

/-- RECEIVE_CALL from the west neighbour for its own lane, JOINED and with no clash: the snapshot's entries, at most the 24 with the
largest west sums, are offered four to an EVIDENCE notice, an empty one as one empty part; any other CALL is ignored (R67, R131, R132). -/
def Obligations.CallsAnswered : Prop :=
  ∀ (s : State) (p : Nat) (id lane : Byte) (a b : Stamp), s.incoming = some (p, .call id lane a b) → p ≠ s.position →
    ∀ kept : List Record,
      kept = keepLargest Record.westSum 24 (s.sightings.filter (fun r =>
        !r.isStray && 0 < r.reads && 0 ≤ stampDiff r.firstStamp b && 0 ≤ stampDiff a r.lastStamp)) →
    (¬(s.cadence.join = .joined ∧ s.neighbours.clash = false ∧ p + 1 = s.position ∧ lane.toNat = p) →
      ∃ t, exec .receiveCall s = .next t ∧ SameBut s [.cadence, .line, .neighbours] t ∧
        t.line = { s.line with rx := .hunting }) ∧
    (s.cadence.join = .joined → s.neighbours.clash = false → p + 1 = s.position → lane.toNat = p → s.HasRoom 6 →
      ∃ t, exec .receiveCall s = .next t ∧ SameBut s [.cadence, .line, .neighbours] t ∧
        t.line = { s.line with
          rx := .hunting
          queue := s.line.queue ++ (numberParts (partsOf 4 kept)).map (fun (part, final, rs) =>
            ⟨.evidence id part final (rs.map (fun r => ⟨r.serial, r.unissued, r.watched, BitVec.ofNat 24 r.westSum,
              BitVec.ofNat 24 r.eastSum, BitVec.ofNat 16 r.reads⟩)), 0, false, false⟩) })

/-- RECEIVE_EVIDENCE from the partner for a COLLECTING adjudication that lacks the part: a part that is not final is merged; a final one is
merged and the adjudication weighed at once; from another station, or for no such adjudication, or one that holds the part, it is ignored.
EVIDENCE_DEADLINE weighs the adjudications whose deadline has reached 0 one after another in list order, each with the evidence it holds,
and with none changes nothing; `ties` says which frame-start work it precedes, in orders the model adds for the claims
(notes/assumptions/6.md). An entry is merged into its serial's candidate, or joins, at 24 in the place of the smallest toward-sum, the
highest serial of equals, when its own is larger; and of more than 24 records the 24 of the largest sum are kept, the lower serial between
equals, in order of serial (R127, R130, R131, R133 to R136, R141, R142). -/
def Obligations.EvidenceAndDeadlineWeigh : Prop :=
  (∀ (s : State) (id : Byte) (part : BitVec 4) (final : Bool) (es : List EvidenceEntry) (pre post : List Adjudication)
      (a m : Adjudication),
    s.incoming = some (s.position + 1, .evidence id part final es) → s.HasRoom 3 →
    s.adj.list = pre ++ a :: post → (∀ x ∈ pre ++ post, x.callId ≠ id) → a.callId = id → a.state = .collecting →
    a.deadline ≠ some 0 → part ∉ a.parts → a.candidates.length ≤ 24 →
    m = { a with
      parts := part :: a.parts
      candidates := es.foldl mergeEntry a.candidates
      evidence := if final = true ∧ ∀ i, i ≤ part.toNat → BitVec.ofNat 4 i ∈ part :: a.parts then .final else .incomplete } →
    ∃ t, exec .receiveEvidence s = .next t ∧ SameBut s [.cadence, .line, .neighbours, .adj, .sightings] t ∧
      (final = false → SameBut s [.cadence, .line, .neighbours, .adj] t ∧ t.line = { s.line with rx := .hunting } ∧
        t.adj = { s.adj with list := pre ++ m :: post }) ∧
      (final = true →
        WeighedTo (s.withList (pre ++ m :: post)) .none ((s.withList (pre ++ m :: post)).scales.weigh m) t)) ∧
  (∀ (s : State) (p : Nat) (id : Byte) (part : BitVec 4) (final : Bool) (es : List EvidenceEntry),
    s.incoming = some (p, .evidence id part final es) → p ≠ s.position → s.line.dropped = [] →
    p ≠ s.position + 1 ∨ (∀ x ∈ s.adj.list, ¬(x.callId = id ∧ x.state = .collecting ∧ x.deadline ≠ some 0 ∧ part ∉ x.parts)) →
    ∃ t, exec .receiveEvidence s = .next t ∧ SameBut s [.cadence, .line, .neighbours] t ∧
      t.line = { s.line with rx := .hunting }) ∧
  (∀ (s : State) (ties : Ties) (due : List Adjudication),
    due = s.adj.list.filter (fun x => x.state == .collecting && x.deadline == some 0) →
    (due = [] → s.line.dropped = [] → exec (.evidenceDeadline ties) s = .next s) ∧
    ∀ (a : Adjudication) (rest : List Adjudication), due = a :: rest → s.HasRoom 3 → a.candidates.length ≤ 24 →
      s.adj.list.Pairwise (fun x y => x.callId ≠ y.callId) →
      ∃ u, exec (.evidenceDeadline ties) s = exec (.evidenceDeadline ties) u ∧ SameBut s [.line, .adj, .sightings] u ∧
        u.line = { s.line with queue := u.line.queue } ∧ WeighedTo s ties (s.scales.weigh a) u) ∧
  (∀ (s : State) (ties : Ties) (a : Adjudication), s.HasRoom 3 → a.candidates.length ≤ 24 →
    s.adj.list.filter (fun x => x.state == .collecting && x.deadline == some 0) = [a] →
    (∀ x ∈ s.adj.list, x.callId = a.callId → x = a) →
    ∃ t, exec (.evidenceDeadline ties) s = .next t ∧ SameBut s [.line, .adj, .sightings] t ∧
      WeighedTo s ties (s.scales.weigh a) t) ∧
  (∀ (cs : List Candidate) (e : EvidenceEntry) (new : Candidate), cs.Pairwise (fun b c => b.serial ≠ c.serial) →
    new = ⟨e.serial, e.unissued || e.watched, e.watched, 0, 0, e.west.toNat, e.east.toNat, e.reads.toNat, none, none,
      false⟩ →
    ((∃ c ∈ cs, c.serial = e.serial) → mergeEntry cs e = cs.map (fun c => if c.serial = e.serial then
      { c with
        partnerWest := e.west.toNat
        partnerEast := e.east.toNat
        reads := min 65535 (c.reads + e.reads.toNat)
        watched := c.watched || e.watched
        unissued := c.unissued || e.unissued || e.watched } else c)) ∧
    ((∀ c ∈ cs, c.serial ≠ e.serial) → cs.length < 24 → mergeEntry cs e = cs ++ [new]) ∧
    ((∀ c ∈ cs, c.serial ≠ e.serial) → 24 ≤ cs.length → ∀ out ∈ cs,
      (∀ c ∈ cs, c ≠ out → out.ownEast + out.partnerWest < c.ownEast + c.partnerWest ∨
        (out.ownEast + out.partnerWest = c.ownEast + c.partnerWest ∧ c.serial.toNat < out.serial.toNat)) →
      (out.ownEast + out.partnerWest < e.west.toNat →
        ∀ c, c ∈ mergeEntry cs e ↔ c = new ∨ (c ∈ cs ∧ c ≠ out)) ∧
      (e.west.toNat ≤ out.ownEast + out.partnerWest → mergeEntry cs e = cs))) ∧
  ∀ (key : Record → Nat) (n : Nat) (l : List Record), l.Pairwise (fun a b => a.serial.toNat < b.serial.toNat) →
    (keepLargest key n l).Pairwise (fun a b => a.serial.toNat < b.serial.toNat) ∧
      (keepLargest key n l).length = min n l.length ∧
      ∀ r, r ∈ keepLargest key n l ↔ r ∈ l ∧
        (l.filter (fun x => key r < key x || (key x == key r && x.serial.toNat < r.serial.toNat))).length < n

/-- Weighing: the share is the whole part of 255 × W / (W + O), 0 for no evidence; the threshold is NORMAL only with FINAL evidence and
neither toward face faulted; a candidate is attributed by share, evidence floor, reads and claims, never with both toward faces faulted;
and its kind follows its status, the direction, the carried-in list and the hold-off, by a young journal entry or by another HOLDING
adjudication in which the serial stands as ALARM or REPEAT (R137, R138, R139, R140, R157). -/
def Obligations.WeighingRule : Prop :=
  ∀ (x : Scales) (a : Adjudication) (c c' : Candidate) (w o : Nat), c' = x.weighOne a c →
    w = c.ownEast + c.partnerWest → o = c.ownWest + c.partnerEast →
    ∃ share, c'.share = some share ∧ share ≤ 255 ∧ (w + o = 0 → share = 0) ∧
      (0 < w + o → share * (w + o) ≤ 255 * w ∧ 255 * w < (share + 1) * (w + o)) ∧
      (c'.kind.isSome = true ↔
        (x.ownFaulted = false ∨ x.partnerFaulted = false) ∧
        (if x.ownFaulted = false ∧ x.partnerFaulted = false ∧ a.evidence = .final then x.settings.normalThreshold
          else x.settings.soloThreshold) ≤ share ∧
        x.settings.evidenceFloor ≤ w ∧ 2 ≤ c.reads ∧
        ∀ k ∈ x.claims, k.serial = c.serial → k.lane = a.lane ∧ k.callId = a.callId) ∧
      (c'.kind.isSome = true → c.unissued = false → c'.kind = some .pass) ∧
      (c'.kind.isSome = true → c.unissued = true → a.direction = .inbound → c'.kind = some .carriedIn) ∧
      (c'.kind.isSome = true → c.unissued = true → a.direction ≠ .inbound →
        ((∃ k ∈ x.carried, k.serial = c.serial) → c'.kind = some .turnback) ∧
        ((∀ k ∈ x.carried, k.serial ≠ c.serial) →
          ((∃ k ∈ x.journal, k.serial = c.serial ∧ k.age < x.settings.holdOff) ∨
            (∃ b ∈ x.others, b.callId ≠ a.callId ∧ b.state = .holding ∧ ∃ y ∈ b.candidates, y.serial = c.serial ∧
              (y.kind = some .alarm ∨ y.kind = some .repeated) ∧ y.yielded = false) → c'.kind = some .repeated) ∧
          ((∀ k ∈ x.journal, k.serial = c.serial → x.settings.holdOff ≤ k.age) →
            (∀ b ∈ x.others, b.callId ≠ a.callId → b.state = .holding → ∀ y ∈ b.candidates, y.serial = c.serial →
              y.kind = some .alarm ∨ y.kind = some .repeated → y.yielded = true) → c'.kind = some .alarm)))

/-- RECEIVE_VERDICT: the named records are reset, with the next frame's stamp as first stamp; the claims are made one after another, a
new one lasting 10 frames, and at 32 in the place of the one with the least remaining frames, the lowest serial and then the lowest lane
of equals; and in each HOLDING adjudication of another lane a standing candidate yields to a greater share, or to an equal share of a
lower lane. Of two lanes that meet each other's shares, just one yields (R64, R66, R143, R146). -/
def Obligations.VerdictsHeard : Prop :=
  (∀ (s : State) (p : Nat) (id lane : Byte) (part : BitVec 4) (final : Bool) (es : List VerdictEntry),
    s.incoming = some (p, .verdict id lane part final es) → p ≠ s.position →
    ∃ t, exec .receiveVerdict s = .next t ∧ SameBut s [.cadence, .line, .neighbours, .sightings, .adj] t ∧
      t.line = { s.line with rx := .hunting } ∧
      t.sightings = s.sightings.map (fun r => if ∃ e ∈ es, e.serial = r.serial then
        { r with westSum := 0, eastSum := 0, reads := 0, firstStamp := s.stamp.next } else r) ∧
      t.adj.nextCall = s.adj.nextCall ∧
      t.adj.claims = es.foldl (fun l e => addClaim ⟨e.serial, lane.toNat, e.share.toNat, id, 10⟩ l) s.adj.claims ∧
      t.adj.list = s.adj.list.map (fun a => if a.state = .holding ∧ a.lane ≠ lane.toNat then
        { a with candidates := a.candidates.map (fun c =>
            if ∃ e ∈ es, c.serial = e.serial ∧ c.stands = true ∧ (c.share.getD 0 < e.share.toNat ∨
                (c.share.getD 0 = e.share.toNat ∧ lane.toNat < a.lane)) then { c with yielded := true } else c) }
        else a)) ∧
  (∀ (c : Claim) (l : List Claim), l.Pairwise (fun a b => ¬(a.serial = b.serial ∧ a.lane = b.lane)) →
    ((∃ k ∈ l, k.serial = c.serial ∧ k.lane = c.lane) →
      addClaim c l = l.map (fun k => if k.serial = c.serial ∧ k.lane = c.lane then c else k)) ∧
    ((∀ k ∈ l, ¬(k.serial = c.serial ∧ k.lane = c.lane)) → l.length < 32 → addClaim c l = l ++ [c]) ∧
    ((∀ k ∈ l, ¬(k.serial = c.serial ∧ k.lane = c.lane)) → 32 ≤ l.length → ∀ out ∈ l,
      (∀ k ∈ l, k ≠ out → out.remaining < k.remaining ∨ (out.remaining = k.remaining ∧
        (out.serial.toNat < k.serial.toNat ∨ (out.serial = k.serial ∧ out.lane < k.lane)))) →
      ∀ k, k ∈ addClaim c l ↔ k = c ∨ (k ∈ l ∧ k ≠ out))) ∧
  ∀ (lane lane' share share' : Nat), lane ≠ lane' →
    (rivalWins lane share lane' share' = true ↔ rivalWins lane' share' lane share = false)

/-- HOLD_EXPIRY of the adjudications whose hold has reached 0, one after another in list order, and with none nothing changes: each leaves
the list and settles: its SETTLEMENT of the standing candidates is offered; the carried-in list takes it; the journal gains the standing
ALARM and REPEAT entries; and with an ALARM standing the latch is set or raised, never lowered, unacknowledged and waiting for nothing,
and RAISED or CLASS_RAISED is offered, and with none the latch is left. `ties` says which frame-start work it precedes, in an order the
model adds for the grace of its entries (notes/assumptions/6.md) (R145, R148, R153, R158, R160, R161, R173). -/
def Obligations.HoldsSettle : Prop :=
  (∀ (s : State) (ties : Ties) (a : Adjudication), s.HasRoom 4 → a.candidates.length ≤ 24 →
    s.adj.list.filter (fun x => x.state == .holding && x.hold == some 0) = [a] →
    (∀ x ∈ s.adj.list, x.callId = a.callId → x = a) →
    ∃ t, exec (.holdExpiry ties) s = .next t ∧ SameBut s [.line, .adj, .carried, .alarm] t ∧
      t.adj = { s.adj with list := s.adj.list.filter (fun x => x.callId ≠ a.callId) } ∧
      t.line = { s.line with queue := t.line.queue } ∧ SettledTo s ties a t) ∧
  ∀ (s : State) (ties : Ties) (due : List Adjudication),
    due = s.adj.list.filter (fun x => x.state == .holding && x.hold == some 0) →
    (due = [] → s.line.dropped = [] → exec (.holdExpiry ties) s = .next s) ∧
    ∀ (a : Adjudication) (rest : List Adjudication), due = a :: rest → s.HasRoom 4 → a.candidates.length ≤ 24 →
      s.adj.list.Pairwise (fun x y => x.callId ≠ y.callId) →
      ∃ u, exec (.holdExpiry ties) s = exec (.holdExpiry ties) u ∧ SameBut s [.line, .adj, .carried, .alarm] u ∧
        u.adj = { s.adj with list := s.adj.list.filter (fun x => x.callId ≠ a.callId) } ∧
        u.line = { s.line with queue := u.line.queue } ∧ SettledTo s ties a u

/-- RECEIVE_SETTLEMENT: a CARRIED_IN entry restores the grace of a serial held, else joins the list, at 32 entries in the place of the
entry with the least grace, the lowest serial of equals; a TURNBACK entry removes its serial; the other kinds do nothing; and the
entries of a notice are applied in their order (R153, R154, R155). -/
def Obligations.SettlementsHeard : Prop :=
  (∀ (s : State) (p : Nat) (id lane : Byte) (part : BitVec 4) (final : Bool) (es : List SettledEntry),
    s.incoming = some (p, .settlement id lane part final es) → p ≠ s.position →
    ∃ t, exec .receiveSettlement s = .next t ∧ SameBut s [.cadence, .line, .neighbours, .carried] t ∧
      t.line = { s.line with rx := .hunting } ∧ t.carried = es.foldl (applySettled s.settings.grace) s.carried) ∧
  ∀ (grace : Nat) (l : List CarriedEntry) (e : SettledEntry), l.Pairwise (fun a b => a.serial ≠ b.serial) →
    (e.kind = .pass ∨ e.kind = .alarm ∨ e.kind = .repeated → applySettled grace l e = l) ∧
    (e.kind = .turnback → ∀ x, x ∈ applySettled grace l e ↔ x ∈ l ∧ x.serial ≠ e.serial) ∧
    (e.kind = .carriedIn → (∃ x ∈ l, x.serial = e.serial) →
      ∀ x, x ∈ applySettled grace l e ↔ x = ⟨e.serial, grace⟩ ∨ (x ∈ l ∧ x.serial ≠ e.serial)) ∧
    (e.kind = .carriedIn → (∀ x ∈ l, x.serial ≠ e.serial) → l.length < 32 →
      applySettled grace l e = l ++ [⟨e.serial, grace⟩]) ∧
    (e.kind = .carriedIn → (∀ x ∈ l, x.serial ≠ e.serial) → 32 ≤ l.length → ∀ out ∈ l,
      (∀ x ∈ l, x ≠ out → out.grace < x.grace ∨ (out.grace = x.grace ∧ out.serial.toNat < x.serial.toNat)) →
      ∀ x, x ∈ applySettled grace l e ↔ x = ⟨e.serial, grace⟩ ∨ (x ∈ l ∧ x ≠ out))

/-- RECEIVE_ACK for the own lane from the partner or the desk station: a latch that is NONE is left alone; set, the journal is marked, and
it clears in LATCHED mode, or in CLEARING mode with the lane CLEAR, with CLEARED offered; with the lane not CLEAR it is acknowledged and
waits, with ACKNOWLEDGED offered; already acknowledged in CLEARING mode it stays. Any other ACK is ignored (R161, R162, R164, R165, R167). -/
def Obligations.AcksApplied : Prop :=
  ∀ (s : State) (p : Nat) (lane : Byte), s.incoming = some (p, .ack lane) → p ≠ s.position → s.HasRoom 1 →
    ∃ t, exec .receiveAck s = .next t ∧ SameBut s [.cadence, .line, .neighbours, .alarm] t ∧
      (¬(s.ownsLane = true ∧ lane.toNat = s.position ∧ (p = s.position + 1 ∨ p = 0)) ∨ s.alarm.latch.cls = .noAlarm →
        t.alarm = s.alarm ∧ t.line = { s.line with rx := .hunting }) ∧
      (s.ownsLane = true → lane.toNat = s.position → p = s.position + 1 ∨ p = 0 → s.alarm.latch.cls ≠ .noAlarm →
        t.alarm.journal = s.alarm.journal.map (fun e => { e with acknowledged := true }) ∧
        t.alarm.cursor = s.alarm.cursor ∧
        (s.settings.latchMode = .latched ∨ (s.alarm.latch.acknowledged = false ∧ s.lane.passage = .clear) →
          t.alarm.latch = ⟨.noAlarm, false, false⟩ ∧
          t.line = { s.line with rx := .hunting, queue := s.line.queue ++
            [⟨.alarm s.laneByte .noAlarm .cleared false, 0, false, false⟩] }) ∧
        (s.settings.latchMode = .clearing → s.alarm.latch.acknowledged = false → s.lane.passage ≠ .clear →
          t.alarm.latch = ⟨s.alarm.latch.cls, true, true⟩ ∧
          t.line = { s.line with rx := .hunting, queue := s.line.queue ++
            [⟨.alarm s.laneByte s.alarm.latch.cls .acknowledged true, 0, false, false⟩] }) ∧
        (s.settings.latchMode = .clearing → s.alarm.latch.acknowledged = true →
          t.alarm.latch = s.alarm.latch ∧ t.line = { s.line with rx := .hunting }))

/-- RECEIVE_JOURNAL_CALL for this position: the entry at the index, or at the cursor for 255, is offered in a JOURNAL notice, or the
answer that there is none; the cursor moves past the entry read, to 0 after index 31 and after none. A call for another position is
ignored (R174). -/
def Obligations.JournalCallsAnswered : Prop :=
  ∀ (s : State) (p : Nat) (target index : Byte) (i : Nat), s.incoming = some (p, .journalCall target index) →
    p ≠ s.position → s.HasRoom 1 → i = (if index = 255 then s.alarm.cursor else index.toNat) →
    ∃ t, exec .receiveJournalCall s = .next t ∧ SameBut s [.cadence, .line, .neighbours, .alarm] t ∧
      (target.toNat ≠ s.position → t.alarm = s.alarm ∧ t.line = { s.line with rx := .hunting }) ∧
      (target.toNat = s.position → ∀ e, s.alarm.journal[i]? = some e →
        t.alarm = { s.alarm with cursor := if i = 31 then 0 else i + 1 } ∧
        t.line = { s.line with rx := .hunting, queue := s.line.queue ++ [⟨.journal (BitVec.ofNat 8 i)
          (some ⟨e.serial, BitVec.ofNat 8 e.lane, e.kind, e.cls, e.stamp, e.acknowledged⟩), 0, false, false⟩] }) ∧
      (target.toNat = s.position → s.alarm.journal.length ≤ i →
        t.alarm = { s.alarm with cursor := 0 } ∧
        t.line = { s.line with rx := .hunting, queue := s.line.queue ++
          [⟨.journal (BitVec.ofNat 8 i) none, 0, false, false⟩] })

/-! ### What is due, and what is shown -/

/-- NEIGHBOUR_ABSENT, LINE_SILENT, CLASH_CLEAR, CLAIM_EXPIRY and CARRIED_IN_EXPIRY: a record silent for 6 is ABSENT with its reported
items gone, a line silent for 6 raises the fault, a clash counted to 20 clears, and the claims and entries counted to 0 are gone; what
is not due stays (R118, R120, R121, R144, R152). -/
def Obligations.DueExpiriesTaken : Prop :=
  ∀ s : State,
    (∃ t, exec .neighbourAbsent s = .next t ∧ SameBut s [.neighbours] t ∧
      t.neighbours = { s.neighbours with
        west := if 6 ≤ s.neighbours.west.silence ∧ s.neighbours.west.presence ≠ .absent then
            ⟨.absent, s.neighbours.west.silence, none, .noAlarm, false⟩
          else s.neighbours.west
        east := if 6 ≤ s.neighbours.east.silence ∧ s.neighbours.east.presence ≠ .absent then
            ⟨.absent, s.neighbours.east.silence, none⟩
          else s.neighbours.east }) ∧
    (∃ t, exec .lineSilent s = .next t ∧ SameBut s [.neighbours] t ∧
      t.neighbours = { s.neighbours with
        lineSilent := s.neighbours.lineSilent || decide (6 ≤ s.neighbours.lineSilence) }) ∧
    (∃ t, exec .clashClear s = .next t ∧ SameBut s [.neighbours] t ∧
      t.neighbours = { s.neighbours with
        clash := s.neighbours.clash && decide (s.neighbours.clashCount < 20) }) ∧
    (∃ t, exec .claimExpiry s = .next t ∧ SameBut s [.adj] t ∧
      t.adj = { s.adj with claims := s.adj.claims.filter (fun c => c.remaining ≠ 0) }) ∧
    ∃ t, exec .carriedInExpiry s = .next t ∧ SameBut s [.carried] t ∧
      t.carried = s.carried.filter (fun e => e.grace ≠ 0)

/-- The lamps and the sounder: dark and silent before the straps are read, in RESET and in HOLD; otherwise an alarm segment is dark with
no class, steady when acknowledged, and flashes slow for UNISSUED and fast for WATCHED; the fault segment is steady just while a listed
condition holds; and the sounder sounds just while it is enabled and a segment shows an unacknowledged alarm (R168 to R172, Table 10-2). -/
def Obligations.LampsAndSounder : Prop :=
  (∀ s : State, (s.startup.straps = none ∨ s.startup.state = .reset ∨ s.startup.state = .hold) →
    s.eastSegment = .dark ∧ s.westSegment = .dark ∧ s.faultSegment = .dark ∧ s.sounder = false) ∧
  (∀ s : State, s.startup.straps.isSome = true → s.startup.state ≠ .reset → s.startup.state ≠ .hold →
    (∀ (segment : Segment) (c : AlarmClass) (acknowledged : Bool),
      (segment, c, acknowledged) = (s.eastSegment, s.alarm.latch.cls, s.alarm.latch.acknowledged) ∨
        (segment, c, acknowledged) =
          (s.westSegment, s.neighbours.west.latchClass, s.neighbours.west.latchAcknowledged) →
      (c = .noAlarm → segment = .dark) ∧ (c ≠ .noAlarm → acknowledged = true → segment = .steady) ∧
        (c = .unissued → acknowledged = false → segment = .slowFlash) ∧
        (c = .watched → acknowledged = false → segment = .fastFlash)) ∧
    (s.faultSegment = .steady ↔
      s.sampler.west.faulted = true ∨ s.sampler.east.faulted = true ∨ s.lane.inner.stuck = true ∨
        s.lane.outer.stuck = true ∨ s.startup.defaulted = true ∨ s.neighbours.clash = true ∨
        s.neighbours.lineSilent = true ∨ s.startup.key = .service ∨ s.startup.state = .strapFault) ∧
    (s.faultSegment = .steady ∨ s.faultSegment = .dark) ∧
    (s.sounder = true ↔ s.settings.sounderEnable = true ∧
      ((s.alarm.latch.cls ≠ .noAlarm ∧ s.alarm.latch.acknowledged = false) ∨
        (s.neighbours.west.latchClass ≠ .noAlarm ∧ s.neighbours.west.latchAcknowledged = false)))) ∧
  ∀ tick, Segment.steady.lit tick = true ∧ Segment.dark.lit tick = false ∧
    (Segment.slowFlash.lit tick = true ↔ tick % 32768 ≤ 16383) ∧ (Segment.fastFlash.lit tick = true ↔ tick % 8192 ≤ 4095)

end Statements
end

