-- ==== Sys2Proof/Laws/State.lean ====
section
/-! SUPPORT. One lemma per block per replacement of a block: what the replacement leaves, and what it puts. -/

namespace Sys2Proof.Machine

section Replace

variable (s : State)

@[simp] theorem State.withCadence_cadence (b : Cadence) : (s.withCadence b).cadence = b := rfl
@[simp] theorem State.withCadence_field (b : Cadence) : (s.withCadence b).field = s.field := rfl
@[simp] theorem State.withCadence_sampler (b : Cadence) : (s.withCadence b).sampler = s.sampler := rfl
@[simp] theorem State.withCadence_sightings (b : Cadence) : (s.withCadence b).sightings = s.sightings := rfl
@[simp] theorem State.withCadence_lane (b : Cadence) : (s.withCadence b).lane = s.lane := rfl
@[simp] theorem State.withCadence_line (b : Cadence) : (s.withCadence b).line = s.line := rfl
@[simp] theorem State.withCadence_neighbours (b : Cadence) : (s.withCadence b).neighbours = s.neighbours := rfl
@[simp] theorem State.withCadence_adj (b : Cadence) : (s.withCadence b).adj = s.adj := rfl
@[simp] theorem State.withCadence_carried (b : Cadence) : (s.withCadence b).carried = s.carried := rfl
@[simp] theorem State.withCadence_alarm (b : Cadence) : (s.withCadence b).alarm = s.alarm := rfl
@[simp] theorem State.withCadence_startup (b : Cadence) : (s.withCadence b).startup = s.startup := rfl
@[simp] theorem State.withCadence_pending (b : Cadence) : (s.withCadence b).pending = s.pending := rfl
@[simp] theorem State.withCadence_twice (b c : Cadence) : (s.withCadence b).withCadence c = s.withCadence c := rfl
@[simp] theorem State.withCadence_self : s.withCadence s.cadence = s := rfl

@[simp] theorem State.withField_cadence (b : FieldDriver) : (s.withField b).cadence = s.cadence := rfl
@[simp] theorem State.withField_field (b : FieldDriver) : (s.withField b).field = b := rfl
@[simp] theorem State.withField_sampler (b : FieldDriver) : (s.withField b).sampler = s.sampler := rfl
@[simp] theorem State.withField_sightings (b : FieldDriver) : (s.withField b).sightings = s.sightings := rfl
@[simp] theorem State.withField_lane (b : FieldDriver) : (s.withField b).lane = s.lane := rfl
@[simp] theorem State.withField_line (b : FieldDriver) : (s.withField b).line = s.line := rfl
@[simp] theorem State.withField_neighbours (b : FieldDriver) : (s.withField b).neighbours = s.neighbours := rfl
@[simp] theorem State.withField_adj (b : FieldDriver) : (s.withField b).adj = s.adj := rfl
@[simp] theorem State.withField_carried (b : FieldDriver) : (s.withField b).carried = s.carried := rfl
@[simp] theorem State.withField_alarm (b : FieldDriver) : (s.withField b).alarm = s.alarm := rfl
@[simp] theorem State.withField_startup (b : FieldDriver) : (s.withField b).startup = s.startup := rfl
@[simp] theorem State.withField_pending (b : FieldDriver) : (s.withField b).pending = s.pending := rfl
@[simp] theorem State.withField_twice (b c : FieldDriver) : (s.withField b).withField c = s.withField c := rfl
@[simp] theorem State.withField_self : s.withField s.field = s := rfl

@[simp] theorem State.withSampler_cadence (b : Sampler) : (s.withSampler b).cadence = s.cadence := rfl
@[simp] theorem State.withSampler_field (b : Sampler) : (s.withSampler b).field = s.field := rfl
@[simp] theorem State.withSampler_sampler (b : Sampler) : (s.withSampler b).sampler = b := rfl
@[simp] theorem State.withSampler_sightings (b : Sampler) : (s.withSampler b).sightings = s.sightings := rfl
@[simp] theorem State.withSampler_lane (b : Sampler) : (s.withSampler b).lane = s.lane := rfl
@[simp] theorem State.withSampler_line (b : Sampler) : (s.withSampler b).line = s.line := rfl
@[simp] theorem State.withSampler_neighbours (b : Sampler) : (s.withSampler b).neighbours = s.neighbours := rfl
@[simp] theorem State.withSampler_adj (b : Sampler) : (s.withSampler b).adj = s.adj := rfl
@[simp] theorem State.withSampler_carried (b : Sampler) : (s.withSampler b).carried = s.carried := rfl
@[simp] theorem State.withSampler_alarm (b : Sampler) : (s.withSampler b).alarm = s.alarm := rfl
@[simp] theorem State.withSampler_startup (b : Sampler) : (s.withSampler b).startup = s.startup := rfl
@[simp] theorem State.withSampler_pending (b : Sampler) : (s.withSampler b).pending = s.pending := rfl
@[simp] theorem State.withSampler_twice (b c : Sampler) : (s.withSampler b).withSampler c = s.withSampler c := rfl
@[simp] theorem State.withSampler_self : s.withSampler s.sampler = s := rfl

@[simp] theorem State.withSightings_cadence (b : List Record) : (s.withSightings b).cadence = s.cadence := rfl
@[simp] theorem State.withSightings_field (b : List Record) : (s.withSightings b).field = s.field := rfl
@[simp] theorem State.withSightings_sampler (b : List Record) : (s.withSightings b).sampler = s.sampler := rfl
@[simp] theorem State.withSightings_sightings (b : List Record) : (s.withSightings b).sightings = b := rfl
@[simp] theorem State.withSightings_lane (b : List Record) : (s.withSightings b).lane = s.lane := rfl
@[simp] theorem State.withSightings_line (b : List Record) : (s.withSightings b).line = s.line := rfl
@[simp] theorem State.withSightings_neighbours (b : List Record) : (s.withSightings b).neighbours = s.neighbours := rfl
@[simp] theorem State.withSightings_adj (b : List Record) : (s.withSightings b).adj = s.adj := rfl
@[simp] theorem State.withSightings_carried (b : List Record) : (s.withSightings b).carried = s.carried := rfl
@[simp] theorem State.withSightings_alarm (b : List Record) : (s.withSightings b).alarm = s.alarm := rfl
@[simp] theorem State.withSightings_startup (b : List Record) : (s.withSightings b).startup = s.startup := rfl
@[simp] theorem State.withSightings_pending (b : List Record) : (s.withSightings b).pending = s.pending := rfl
@[simp] theorem State.withSightings_twice (b c : List Record) : (s.withSightings b).withSightings c = s.withSightings c := rfl
@[simp] theorem State.withSightings_self : s.withSightings s.sightings = s := rfl

@[simp] theorem State.withLane_cadence (b : LaneMonitor) : (s.withLane b).cadence = s.cadence := rfl
@[simp] theorem State.withLane_field (b : LaneMonitor) : (s.withLane b).field = s.field := rfl
@[simp] theorem State.withLane_sampler (b : LaneMonitor) : (s.withLane b).sampler = s.sampler := rfl
@[simp] theorem State.withLane_sightings (b : LaneMonitor) : (s.withLane b).sightings = s.sightings := rfl
@[simp] theorem State.withLane_lane (b : LaneMonitor) : (s.withLane b).lane = b := rfl
@[simp] theorem State.withLane_line (b : LaneMonitor) : (s.withLane b).line = s.line := rfl
@[simp] theorem State.withLane_neighbours (b : LaneMonitor) : (s.withLane b).neighbours = s.neighbours := rfl
@[simp] theorem State.withLane_adj (b : LaneMonitor) : (s.withLane b).adj = s.adj := rfl
@[simp] theorem State.withLane_carried (b : LaneMonitor) : (s.withLane b).carried = s.carried := rfl
@[simp] theorem State.withLane_alarm (b : LaneMonitor) : (s.withLane b).alarm = s.alarm := rfl
@[simp] theorem State.withLane_startup (b : LaneMonitor) : (s.withLane b).startup = s.startup := rfl
@[simp] theorem State.withLane_pending (b : LaneMonitor) : (s.withLane b).pending = s.pending := rfl
@[simp] theorem State.withLane_twice (b c : LaneMonitor) : (s.withLane b).withLane c = s.withLane c := rfl
@[simp] theorem State.withLane_self : s.withLane s.lane = s := rfl

@[simp] theorem State.withLine_cadence (b : RowLine) : (s.withLine b).cadence = s.cadence := rfl
@[simp] theorem State.withLine_field (b : RowLine) : (s.withLine b).field = s.field := rfl
@[simp] theorem State.withLine_sampler (b : RowLine) : (s.withLine b).sampler = s.sampler := rfl
@[simp] theorem State.withLine_sightings (b : RowLine) : (s.withLine b).sightings = s.sightings := rfl
@[simp] theorem State.withLine_lane (b : RowLine) : (s.withLine b).lane = s.lane := rfl
@[simp] theorem State.withLine_line (b : RowLine) : (s.withLine b).line = b := rfl
@[simp] theorem State.withLine_neighbours (b : RowLine) : (s.withLine b).neighbours = s.neighbours := rfl
@[simp] theorem State.withLine_adj (b : RowLine) : (s.withLine b).adj = s.adj := rfl
@[simp] theorem State.withLine_carried (b : RowLine) : (s.withLine b).carried = s.carried := rfl
@[simp] theorem State.withLine_alarm (b : RowLine) : (s.withLine b).alarm = s.alarm := rfl
@[simp] theorem State.withLine_startup (b : RowLine) : (s.withLine b).startup = s.startup := rfl
@[simp] theorem State.withLine_pending (b : RowLine) : (s.withLine b).pending = s.pending := rfl
@[simp] theorem State.withLine_twice (b c : RowLine) : (s.withLine b).withLine c = s.withLine c := rfl
@[simp] theorem State.withLine_self : s.withLine s.line = s := rfl

@[simp] theorem State.withNeighbours_cadence (b : Neighbours) : (s.withNeighbours b).cadence = s.cadence := rfl
@[simp] theorem State.withNeighbours_field (b : Neighbours) : (s.withNeighbours b).field = s.field := rfl
@[simp] theorem State.withNeighbours_sampler (b : Neighbours) : (s.withNeighbours b).sampler = s.sampler := rfl
@[simp] theorem State.withNeighbours_sightings (b : Neighbours) : (s.withNeighbours b).sightings = s.sightings := rfl
@[simp] theorem State.withNeighbours_lane (b : Neighbours) : (s.withNeighbours b).lane = s.lane := rfl
@[simp] theorem State.withNeighbours_line (b : Neighbours) : (s.withNeighbours b).line = s.line := rfl
@[simp] theorem State.withNeighbours_neighbours (b : Neighbours) : (s.withNeighbours b).neighbours = b := rfl
@[simp] theorem State.withNeighbours_adj (b : Neighbours) : (s.withNeighbours b).adj = s.adj := rfl
@[simp] theorem State.withNeighbours_carried (b : Neighbours) : (s.withNeighbours b).carried = s.carried := rfl
@[simp] theorem State.withNeighbours_alarm (b : Neighbours) : (s.withNeighbours b).alarm = s.alarm := rfl
@[simp] theorem State.withNeighbours_startup (b : Neighbours) : (s.withNeighbours b).startup = s.startup := rfl
@[simp] theorem State.withNeighbours_pending (b : Neighbours) : (s.withNeighbours b).pending = s.pending := rfl
@[simp] theorem State.withNeighbours_twice (b c : Neighbours) : (s.withNeighbours b).withNeighbours c = s.withNeighbours c := rfl
@[simp] theorem State.withNeighbours_self : s.withNeighbours s.neighbours = s := rfl

@[simp] theorem State.withAdj_cadence (b : Adjudicator) : (s.withAdj b).cadence = s.cadence := rfl
@[simp] theorem State.withAdj_field (b : Adjudicator) : (s.withAdj b).field = s.field := rfl
@[simp] theorem State.withAdj_sampler (b : Adjudicator) : (s.withAdj b).sampler = s.sampler := rfl
@[simp] theorem State.withAdj_sightings (b : Adjudicator) : (s.withAdj b).sightings = s.sightings := rfl
@[simp] theorem State.withAdj_lane (b : Adjudicator) : (s.withAdj b).lane = s.lane := rfl
@[simp] theorem State.withAdj_line (b : Adjudicator) : (s.withAdj b).line = s.line := rfl
@[simp] theorem State.withAdj_neighbours (b : Adjudicator) : (s.withAdj b).neighbours = s.neighbours := rfl
@[simp] theorem State.withAdj_adj (b : Adjudicator) : (s.withAdj b).adj = b := rfl
@[simp] theorem State.withAdj_carried (b : Adjudicator) : (s.withAdj b).carried = s.carried := rfl
@[simp] theorem State.withAdj_alarm (b : Adjudicator) : (s.withAdj b).alarm = s.alarm := rfl
@[simp] theorem State.withAdj_startup (b : Adjudicator) : (s.withAdj b).startup = s.startup := rfl
@[simp] theorem State.withAdj_pending (b : Adjudicator) : (s.withAdj b).pending = s.pending := rfl
@[simp] theorem State.withAdj_twice (b c : Adjudicator) : (s.withAdj b).withAdj c = s.withAdj c := rfl
@[simp] theorem State.withAdj_self : s.withAdj s.adj = s := rfl

@[simp] theorem State.withCarried_cadence (b : List CarriedEntry) : (s.withCarried b).cadence = s.cadence := rfl
@[simp] theorem State.withCarried_field (b : List CarriedEntry) : (s.withCarried b).field = s.field := rfl
@[simp] theorem State.withCarried_sampler (b : List CarriedEntry) : (s.withCarried b).sampler = s.sampler := rfl
@[simp] theorem State.withCarried_sightings (b : List CarriedEntry) : (s.withCarried b).sightings = s.sightings := rfl
@[simp] theorem State.withCarried_lane (b : List CarriedEntry) : (s.withCarried b).lane = s.lane := rfl
@[simp] theorem State.withCarried_line (b : List CarriedEntry) : (s.withCarried b).line = s.line := rfl
@[simp] theorem State.withCarried_neighbours (b : List CarriedEntry) : (s.withCarried b).neighbours = s.neighbours := rfl
@[simp] theorem State.withCarried_adj (b : List CarriedEntry) : (s.withCarried b).adj = s.adj := rfl
@[simp] theorem State.withCarried_carried (b : List CarriedEntry) : (s.withCarried b).carried = b := rfl
@[simp] theorem State.withCarried_alarm (b : List CarriedEntry) : (s.withCarried b).alarm = s.alarm := rfl
@[simp] theorem State.withCarried_startup (b : List CarriedEntry) : (s.withCarried b).startup = s.startup := rfl
@[simp] theorem State.withCarried_pending (b : List CarriedEntry) : (s.withCarried b).pending = s.pending := rfl
@[simp] theorem State.withCarried_twice (b c : List CarriedEntry) : (s.withCarried b).withCarried c = s.withCarried c := rfl
@[simp] theorem State.withCarried_self : s.withCarried s.carried = s := rfl

@[simp] theorem State.withAlarm_cadence (b : AlarmUnit) : (s.withAlarm b).cadence = s.cadence := rfl
@[simp] theorem State.withAlarm_field (b : AlarmUnit) : (s.withAlarm b).field = s.field := rfl
@[simp] theorem State.withAlarm_sampler (b : AlarmUnit) : (s.withAlarm b).sampler = s.sampler := rfl
@[simp] theorem State.withAlarm_sightings (b : AlarmUnit) : (s.withAlarm b).sightings = s.sightings := rfl
@[simp] theorem State.withAlarm_lane (b : AlarmUnit) : (s.withAlarm b).lane = s.lane := rfl
@[simp] theorem State.withAlarm_line (b : AlarmUnit) : (s.withAlarm b).line = s.line := rfl
@[simp] theorem State.withAlarm_neighbours (b : AlarmUnit) : (s.withAlarm b).neighbours = s.neighbours := rfl
@[simp] theorem State.withAlarm_adj (b : AlarmUnit) : (s.withAlarm b).adj = s.adj := rfl
@[simp] theorem State.withAlarm_carried (b : AlarmUnit) : (s.withAlarm b).carried = s.carried := rfl
@[simp] theorem State.withAlarm_alarm (b : AlarmUnit) : (s.withAlarm b).alarm = b := rfl
@[simp] theorem State.withAlarm_startup (b : AlarmUnit) : (s.withAlarm b).startup = s.startup := rfl
@[simp] theorem State.withAlarm_pending (b : AlarmUnit) : (s.withAlarm b).pending = s.pending := rfl
@[simp] theorem State.withAlarm_twice (b c : AlarmUnit) : (s.withAlarm b).withAlarm c = s.withAlarm c := rfl
@[simp] theorem State.withAlarm_self : s.withAlarm s.alarm = s := rfl

@[simp] theorem State.withStartup_cadence (b : StartUp) : (s.withStartup b).cadence = s.cadence := rfl
@[simp] theorem State.withStartup_field (b : StartUp) : (s.withStartup b).field = s.field := rfl
@[simp] theorem State.withStartup_sampler (b : StartUp) : (s.withStartup b).sampler = s.sampler := rfl
@[simp] theorem State.withStartup_sightings (b : StartUp) : (s.withStartup b).sightings = s.sightings := rfl
@[simp] theorem State.withStartup_lane (b : StartUp) : (s.withStartup b).lane = s.lane := rfl
@[simp] theorem State.withStartup_line (b : StartUp) : (s.withStartup b).line = s.line := rfl
@[simp] theorem State.withStartup_neighbours (b : StartUp) : (s.withStartup b).neighbours = s.neighbours := rfl
@[simp] theorem State.withStartup_adj (b : StartUp) : (s.withStartup b).adj = s.adj := rfl
@[simp] theorem State.withStartup_carried (b : StartUp) : (s.withStartup b).carried = s.carried := rfl
@[simp] theorem State.withStartup_alarm (b : StartUp) : (s.withStartup b).alarm = s.alarm := rfl
@[simp] theorem State.withStartup_startup (b : StartUp) : (s.withStartup b).startup = b := rfl
@[simp] theorem State.withStartup_pending (b : StartUp) : (s.withStartup b).pending = s.pending := rfl
@[simp] theorem State.withStartup_twice (b c : StartUp) : (s.withStartup b).withStartup c = s.withStartup c := rfl
@[simp] theorem State.withStartup_self : s.withStartup s.startup = s := rfl

end Replace

end Sys2Proof.Machine
end

