-- ==== Sys2Proof/Laws/Frame.lean ====
section
/-! SUPPORT. What each shared operation leaves unchanged, said once per operation by SameBut. -/

namespace Sys2Proof.Machine

/-! ### The relation -/

theorem SameBut.refl (s : State) (bs : List Block) : SameBut s bs s :=
  ⟨rfl, fun b _ => by cases b <;> rfl⟩

theorem SameBut.trans {s t u : State} {bs : List Block} (h : SameBut s bs t) (k : SameBut t bs u) : SameBut s bs u :=
  ⟨k.pending.trans h.pending, fun b hb => by
    have h1 := h.blocks b hb
    have h2 := k.blocks b hb
    cases b <;> exact Eq.trans h2 h1⟩

theorem SameBut.mono {s t : State} {bs cs : List Block} (h : SameBut s bs t) (sub : bs ⊆ cs) : SameBut s cs t :=
  ⟨h.pending, fun b hb => h.blocks b (fun hm => hb (sub hm))⟩

/-- One operation after another changes the blocks of both. -/
theorem SameBut.then {s t u : State} {bs cs ds : List Block} (h : SameBut s bs t) (k : SameBut t cs u)
    (hb : bs ⊆ ds) (hc : cs ⊆ ds) : SameBut s ds u :=
  SameBut.trans (h.mono hb) (k.mono hc)

theorem SameBut.ite {s a b : State} {bs : List Block} {p : Prop} [Decidable p] (ha : SameBut s bs a)
    (hb : SameBut s bs b) : SameBut s bs (if p then a else b) := by
  split <;> assumption

/-- A fold of operations that each keep the other blocks keeps them. -/
theorem SameBut.foldl {α : Type} {bs : List Block} {f : State → α → State} (hf : ∀ s a, SameBut s bs (f s a)) :
    ∀ (l : List α) (s : State), SameBut s bs (l.foldl f s)
  | [], s => SameBut.refl s bs
  | a :: l, s => SameBut.trans (hf s a) (SameBut.foldl hf l (f s a))

/-! ### One block replaced -/

section Replace

variable (s : State)

theorem State.withCadence_frame (b : Cadence) : SameBut s [.cadence] (s.withCadence b) :=
  ⟨rfl, fun x h => by cases x <;> first | rfl | simp at h⟩
theorem State.withField_frame (b : FieldDriver) : SameBut s [.field] (s.withField b) :=
  ⟨rfl, fun x h => by cases x <;> first | rfl | simp at h⟩
theorem State.withSampler_frame (b : Sampler) : SameBut s [.sampler] (s.withSampler b) :=
  ⟨rfl, fun x h => by cases x <;> first | rfl | simp at h⟩
theorem State.withSightings_frame (b : List Record) : SameBut s [.sightings] (s.withSightings b) :=
  ⟨rfl, fun x h => by cases x <;> first | rfl | simp at h⟩
theorem State.withLane_frame (b : LaneMonitor) : SameBut s [.lane] (s.withLane b) :=
  ⟨rfl, fun x h => by cases x <;> first | rfl | simp at h⟩
theorem State.withLine_frame (b : RowLine) : SameBut s [.line] (s.withLine b) :=
  ⟨rfl, fun x h => by cases x <;> first | rfl | simp at h⟩
theorem State.withNeighbours_frame (b : Neighbours) : SameBut s [.neighbours] (s.withNeighbours b) :=
  ⟨rfl, fun x h => by cases x <;> first | rfl | simp at h⟩
theorem State.withAdj_frame (b : Adjudicator) : SameBut s [.adj] (s.withAdj b) :=
  ⟨rfl, fun x h => by cases x <;> first | rfl | simp at h⟩
theorem State.withCarried_frame (b : List CarriedEntry) : SameBut s [.carried] (s.withCarried b) :=
  ⟨rfl, fun x h => by cases x <;> first | rfl | simp at h⟩
theorem State.withAlarm_frame (b : AlarmUnit) : SameBut s [.alarm] (s.withAlarm b) :=
  ⟨rfl, fun x h => by cases x <;> first | rfl | simp at h⟩
theorem State.withStartup_frame (b : StartUp) : SameBut s [.startup] (s.withStartup b) :=
  ⟨rfl, fun x h => by cases x <;> first | rfl | simp at h⟩
theorem State.withList_frame (l : List Adjudication) : SameBut s [.adj] (s.withList l) := s.withAdj_frame _

/-! ### Time -/

theorem State.advance_frame (u : Nat) : SameBut s [.cadence] (s.advance u) :=
  SameBut.ite (s.withCadence_frame _) (SameBut.refl s _)
theorem State.waitBits_frame (n : Nat) : SameBut s [.cadence] (s.waitBits n) := s.advance_frame _
theorem State.toMoment_frame (m : Nat) : SameBut s [.cadence] (s.toMoment m) := s.advance_frame _
theorem State.toTick_frame (t : Nat) : SameBut s [.cadence] (s.toTick t) := s.advance_frame _
theorem State.toOffset_frame (o : Nat) : SameBut s [.cadence] (s.toOffset o) := s.advance_frame _

/-! ### Offers, withdrawals and reports -/

theorem State.offer_frame (n : Notice) : SameBut s [.line] (s.offer n) :=
  SameBut.ite (SameBut.refl s _) (s.withLine_frame _)
theorem State.offerAll_frame (ns : List Notice) : SameBut s [.line] (s.offerAll ns) :=
  SameBut.foldl State.offer_frame ns s
theorem State.withdraw_frame (p : Notice → Bool) : SameBut s [.line] (s.withdraw p) := s.withLine_frame _
theorem State.withdrawEvidence_frame : SameBut s [.line] s.withdrawEvidence := s.withdraw_frame _
theorem State.abandonAll_frame : SameBut s [.line, .adj] s.abandonAll :=
  SameBut.then (s.withdraw_frame _) (State.withList_frame _ _) (by simp) (by simp)
theorem State.startHold_frame (id : Byte) : SameBut s [.adj] (s.startHold id) := s.withList_frame _
theorem State.startDeadline_frame (id : Byte) : SameBut s [.adj] (s.startDeadline id) := s.withList_frame _

end Replace

/-! ### Adjudication -/

/-- The blocks a weighing changes. -/
abbrev weighed : List Block := [.line, .adj, .sightings]

/-- The blocks an opening changes: it may weigh and settle. -/
abbrev opened : List Block := [.line, .adj, .sightings, .carried, .alarm]

section Adjudicate

variable (s : State)

theorem State.giveVerdict_frame (ties : Ties) (w : Adjudication) : SameBut s weighed (s.giveVerdict ties w) :=
  SameBut.then (SameBut.then (s.offerAll_frame _) (State.withAdj_frame _ _) (ds := weighed) (by simp) (by simp))
    (State.withSightings_frame _ _) (by simp) (by simp)

theorem State.weighListed_frame (ties : Ties) (a : Adjudication) : SameBut s weighed (s.weighListed ties a) :=
  SameBut.ite ((s.withList_frame _).mono (by simp))
    (SameBut.then (s.withList_frame _) (State.giveVerdict_frame _ _ _) (by simp) (by simp))

theorem State.dropReport_frame (ties : Ties) (n : Notice) : SameBut s weighed (s.dropReport ties n) := by
  unfold State.dropReport
  split
  · split
    · exact s.weighListed_frame _ _
    · exact SameBut.refl s _
  · exact (s.startHold_frame _).mono (by simp)
  · exact SameBut.refl s _

theorem State.takeReports_frame (ties : Ties) : ∀ (fuel : Nat) (s : State), SameBut s weighed (s.takeReports ties fuel)
  | 0, s => SameBut.refl s _
  | fuel + 1, s => by
    unfold State.takeReports
    split
    · exact SameBut.refl s _
    · exact SameBut.trans
        (SameBut.then (s.withLine_frame _) (State.dropReport_frame _ _ _) (by simp) (by simp))
        (State.takeReports_frame ties fuel _)

theorem State.finishOffers_frame (ties : Ties) : SameBut s weighed (s.finishOffers ties) :=
  State.takeReports_frame ties _ s

/-- With no report waiting, nothing is left to take. -/
theorem State.finishOffers_none {s : State} (ties : Ties) (h : s.line.dropped = []) : s.finishOffers ties = s := by
  simp [State.finishOffers, reportFuel, State.takeReports, h]

/-! ### The latch -/

theorem State.changeLatch_frame (l : Latch) (c : LatchChange) : SameBut s [.alarm, .line] (s.changeLatch l c) :=
  SameBut.then (s.withAlarm_frame _) (State.offer_frame _ _) (by simp) (by simp)
theorem State.clearLatch_frame : SameBut s [.alarm, .line] s.clearLatch := s.changeLatch_frame _ _

theorem State.raiseLatch_frame (c : AlarmClass) : SameBut s [.alarm, .line] (s.raiseLatch c) := by
  unfold State.raiseLatch
  split <;> exact s.changeLatch_frame _ _

theorem State.acknowledgeSet_frame : SameBut s [.alarm, .line] s.acknowledgeSet := by
  unfold State.acknowledgeSet
  split
  · exact s.clearLatch_frame
  · exact SameBut.ite (SameBut.refl s _) (SameBut.ite s.clearLatch_frame (s.changeLatch_frame _ _))

theorem State.acknowledge_frame : SameBut s [.alarm, .line] s.acknowledge :=
  SameBut.ite (SameBut.refl s _)
    (SameBut.then (s.withAlarm_frame _) (State.acknowledgeSet_frame _) (by simp) (by simp))

theorem State.returnToClear_frame : SameBut s [.alarm, .line] s.returnToClear :=
  SameBut.ite s.clearLatch_frame (SameBut.refl s _)

theorem State.answerJournal_frame (i : Byte) : SameBut s [.alarm, .line] (s.answerJournal i) :=
  SameBut.then (s.withAlarm_frame _) (State.offer_frame _ _) (by simp) (by simp)

/-! ### Settlement and opening -/

theorem State.settle_frame (ties : Ties) (a : Adjudication) : SameBut s [.line, .carried, .alarm] (s.settle ties a) := by
  have h : SameBut s [.line, .carried, .alarm] (((s.offerAll a.settlements).withCarried
      (applySettlement ((s.offerAll a.settlements).settledGrace ties) a.settled (s.offerAll a.settlements).carried)).withAlarm
      { (s.offerAll a.settlements).alarm with
        journal := ((a.standing.filter Candidate.alarms).map
          (State.journalEntry ((s.offerAll a.settlements).withCarried (applySettlement
            ((s.offerAll a.settlements).settledGrace ties) a.settled (s.offerAll a.settlements).carried)) ties a)).foldl
          (fun j e => appendJournal e j) (s.offerAll a.settlements).alarm.journal }) :=
    SameBut.then (SameBut.then (s.offerAll_frame _) (State.withCarried_frame _ _)
      (ds := [.line, .carried, .alarm]) (by simp) (by simp)) (State.withAlarm_frame _ _) (by simp) (by simp)
  unfold State.settle
  split
  · exact SameBut.then h (State.raiseLatch_frame _ _) (by simp) (by simp)
  · exact h

theorem State.enterWeighed_frame (ties : Ties) (w : Adjudication) : SameBut s opened (s.enterWeighed ties w) := by
  unfold State.enterWeighed
  refine SameBut.ite ((s.withList_frame _).mono (by simp)) ?_
  split
  · exact SameBut.then (s.withList_frame _) (State.settle_frame _ _ _) (by simp) (by simp)
  · exact (s.settle_frame _ _).mono (by simp)

theorem State.weighNew_frame (ties : Ties) (a : Adjudication) : SameBut s opened (s.weighNew ties a) :=
  SameBut.ite (SameBut.refl s _)
    (SameBut.then (s.giveVerdict_frame _ _) (State.enterWeighed_frame _ _ _) (by simp) (by simp))

theorem State.callPartner_frame (a : Adjudication) : SameBut s [.line, .adj] (s.callPartner a) :=
  SameBut.then (s.withList_frame _) (State.offer_frame _ _) (by simp) (by simp)

theorem State.openAdjudication_frame (ties : Ties) (t : Trigger) (d : Direction) (a b : Stamp) :
    SameBut s opened (s.openAdjudication ties t d a b) := by
  unfold State.openAdjudication
  refine SameBut.ite (SameBut.refl s _) ?_
  refine SameBut.then (SameBut.then (s.withAdj_frame _) (SameBut.ite (State.weighNew_frame _ _ _)
    ((State.callPartner_frame _ _).mono (by simp))) (ds := opened) (by simp) (by simp))
    (State.finishOffers_frame _ _) (by simp) (by simp)

theorem State.settleListed_frame (ties : Ties) (a : Adjudication) : SameBut s opened (s.settleListed ties a) :=
  SameBut.then (s.withList_frame _) (State.settle_frame _ _ _) (by simp) (by simp)

theorem State.weighId_frame (ties : Ties) (id : Byte) : SameBut s weighed (s.weighId ties id) := by
  unfold State.weighId
  split
  · exact s.weighListed_frame _ _
  · exact SameBut.refl s _

theorem State.deliverFade_frame (ties : Ties) (r : Record) : SameBut s opened (s.deliverFade ties r) :=
  s.openAdjudication_frame _ _ _ _ _

theorem State.deliverPassage_frame (d : Direction) (a b : Stamp) : SameBut s opened (s.deliverPassage d a b) :=
  s.openAdjudication_frame _ _ _ _ _

end Adjudicate

end Sys2Proof.Machine
end

