-- ==== Sys2Proof/Laws/ExecFrame.lean ====
section
/-! SUPPORT. What each command leaves unchanged: it answers a next state, and only the named blocks may differ. -/

namespace Sys2Proof.Machine

/-- Every block. -/
abbrev everyBlock : List Block :=
  [.cadence, .field, .sampler, .sightings, .lane, .line, .neighbours, .adj, .carried, .alarm, .startup]

/-- A state with the same commands waiting differs at most in its blocks. -/
theorem SameBut.every {s t : State} (h : t.pending = s.pending) : SameBut s everyBlock t :=
  ⟨h, fun b hb => by cases b <;> simp at hb⟩

section Operations

variable (s : State)

theorem State.hearStation_frame (p : Nat) : SameBut s [.neighbours] (s.hearStation p) := s.withNeighbours_frame _

theorem State.clashTrigger_frame : SameBut s [.neighbours, .line, .adj] s.clashTrigger :=
  SameBut.ite ((s.withNeighbours_frame _).mono (by simp))
    (SameBut.then (SameBut.then (s.withNeighbours_frame _) (State.abandonAll_frame _) (ds := [.neighbours, .line, .adj])
      (by simp) (by simp)) (State.withdrawEvidence_frame _) (by simp) (by simp))

theorem State.hearSender_frame (p : Nat) : SameBut s [.neighbours, .line, .adj] (s.hearSender p) :=
  SameBut.ite (SameBut.then (s.hearStation_frame _) (State.clashTrigger_frame _) (by simp) (by simp))
    ((s.hearStation_frame _).mono (by simp))

theorem State.dropAssembly_frame : SameBut s [.line, .cadence] s.dropAssembly :=
  SameBut.then (s.withLine_frame _) (State.withCadence_frame _ _) (by simp) (by simp)

theorem State.dropBreak_frame : SameBut s [.cadence] s.dropBreak := s.withCadence_frame _

theorem State.takeNotice_frame (p : Nat) : SameBut s [.neighbours, .line, .adj] (s.takeNotice p) :=
  SameBut.then (s.withLine_frame _) (State.hearSender_frame _ _) (by simp) (by simp)

/-- The blocks that hearing any notice may change. -/
abbrev heardBlocks : List Block := [.cadence, .line, .neighbours, .adj]

theorem State.takeOther_frame (p : Nat) : SameBut s heardBlocks (s.takeOther p) :=
  SameBut.then s.dropAssembly_frame (State.hearSender_frame _ _) (by simp) (by simp)

theorem State.raiseRequest_frame (r : RunRequest) : SameBut s [.field] (s.raiseRequest r) := s.withField_frame _

theorem State.offerStatus_frame (w : Bool) (v : StatusView) : SameBut s [.line] (s.offerStatus w v) :=
  SameBut.ite (s.offer_frame _) (s.withLine_frame s.line)

/-- The blocks of a frame start. -/
abbrev frameBlocks : List Block :=
  [.cadence, .field, .sightings, .lane, .line, .neighbours, .adj, .carried, .alarm]

theorem State.frameStartEvent_frame (st : Stamp) (o a : Nat) (m : Bool) (v : StatusView) :
    SameBut s frameBlocks (s.frameStartEvent st o a m v) := by
  unfold State.frameStartEvent
  refine SameBut.trans ?_ ((State.offerStatus_frame _ _ _).mono (by simp))
  refine SameBut.trans ?_ ((State.withAlarm_frame _ _).mono (by simp))
  refine SameBut.trans ?_ ((State.withCarried_frame _ _).mono (by simp))
  refine SameBut.trans ?_ ((State.withAdj_frame _ _).mono (by simp))
  refine SameBut.trans ?_ (SameBut.ite ((State.withNeighbours_frame _ _).mono (by simp)) (SameBut.refl _ _))
  refine SameBut.trans ?_ ((State.withLane_frame _ _).mono (by simp))
  refine SameBut.trans ?_ ((State.withSightings_frame _ _).mono (by simp))
  refine SameBut.trans ?_ ((State.withField_frame _ _).mono (by simp))
  exact (s.withCadence_frame _).mono (by simp)

/-- The blocks of a joining. -/
abbrev joinBlocks : List Block := .startup :: frameBlocks

theorem State.joinAt_frame (n : BitVec 16) (o : Nat) (m : Bool) : SameBut s joinBlocks (s.joinAt n o m) := by
  unfold State.joinAt
  refine SameBut.trans ?_ (SameBut.ite (SameBut.refl _ _) ((State.raiseRequest_frame _ _).mono (by simp)))
  refine SameBut.trans ?_ ((State.frameStartEvent_frame _ _ _ _ _ _).mono (by simp))
  refine SameBut.trans ?_ ((State.withLane_frame _ _).mono (by simp))
  refine SameBut.trans ?_ ((State.withStartup_frame _ _).mono (by simp))
  exact (s.withCadence_frame _).mono (by simp)

theorem State.numberChanged_frame : SameBut s [.line, .adj, .sightings, .lane] s.numberChanged := by
  unfold State.numberChanged
  refine SameBut.trans ?_ ((State.withLane_frame _ _).mono (by simp))
  refine SameBut.trans ?_ ((State.withSightings_frame _ _).mono (by simp))
  refine SameBut.trans ?_ ((State.withAdj_frame _ _).mono (by simp))
  exact SameBut.then s.abandonAll_frame (State.withdrawEvidence_frame _) (by simp) (by simp)

theorem State.phaseAction_frame (b : PendingBreak) (n m : BitVec 16) (d : Byte) (e dd : Int) :
    SameBut s frameBlocks (s.phaseAction b n m d e dd) := by
  unfold State.phaseAction
  refine SameBut.ite ((s.withCadence_frame _).mono (by simp)) (SameBut.ite (SameBut.ite (s.frameStartEvent_frame _ _ _ _ _)
    ((s.withCadence_frame _).mono (by simp))) ?_)
  exact SameBut.then (s.withField_frame _) (State.frameStartEvent_frame _ _ _ _ _ _) (by simp) (by simp)

theorem State.judgeCadence_frame (b : PendingBreak) (n : BitVec 16) (d : Byte) :
    SameBut s frameBlocks (s.judgeCadence b n d) := by
  unfold State.judgeCadence
  refine SameBut.ite (SameBut.ite ?_ ?_) (SameBut.refl _ _)
  · exact SameBut.then (s.withCadence_frame _) (State.phaseAction_frame _ _ _ _ _ _ _) (by simp) (by simp)
  · exact SameBut.then (SameBut.then (s.withCadence_frame _) (State.phaseAction_frame _ _ _ _ _ _ _) (ds := frameBlocks)
      (by simp) (by simp)) (State.numberChanged_frame _) (by simp) (by simp)

theorem State.adoptListening_frame (b : PendingBreak) (n : BitVec 16) (d : Byte) :
    SameBut s joinBlocks (s.adoptListening b n d) := by
  unfold State.adoptListening
  refine SameBut.trans ?_ ((State.joinAt_frame _ _ _ _).mono (by simp))
  exact SameBut.ite ((s.withCadence_frame _).mono (by simp))
    (SameBut.then (s.withCadence_frame _) (State.numberChanged_frame _) (by simp) (by simp))

theorem State.hearCadence_frame (n : BitVec 16) (d : Byte) : SameBut s joinBlocks (s.hearCadence n d) := by
  unfold State.hearCadence
  split
  · exact s.adoptListening_frame _ _ _
  · exact SameBut.then s.dropBreak_frame (State.judgeCadence_frame _ _ _ _) (by simp) (by simp)
  · exact s.dropBreak_frame.mono (by simp)

theorem State.beginListening_frame (h : Bool) : SameBut s [.cadence, .line, .startup] (s.beginListening h) := by
  unfold State.beginListening
  exact SameBut.then (SameBut.then (s.withCadence_frame _) (State.withLine_frame _ _) (ds := [.cadence, .line]) (by simp)
    (by simp)) (State.withStartup_frame _ _) (by simp) (by simp)

theorem State.finishConfig_frame (i : Option Settings) (acts : List PortAct) :
    SameBut s [.cadence, .line, .startup] (s.finishConfig i acts) :=
  SameBut.then (s.withStartup_frame _) (State.beginListening_frame _ _) (by simp) (by simp)

theorem State.enterHold_frame (r : ResumeTo) :
    SameBut s [.cadence, .field, .sightings, .line, .adj, .startup] (s.enterHold r) :=
  ⟨rfl, fun b hb => by cases b <;> first | rfl | simp at hb⟩

theorem State.resume_frame : SameBut s [.cadence, .lane, .neighbours, .startup] s.resume := by
  unfold State.resume
  refine SameBut.trans ?_ ((State.withStartup_frame _ _).mono (by simp))
  refine SameBut.trans ?_ ((State.withNeighbours_frame _ _).mono (by simp))
  refine SameBut.trans ?_ ((State.withLane_frame _ _).mono (by simp))
  exact (s.withCadence_frame _).mono (by simp)

theorem State.takePassage_frame (c : Option Completed) : SameBut s opened (s.takePassage c) := by
  unfold State.takePassage
  split
  · exact SameBut.ite (s.deliverPassage_frame _ _ _) (SameBut.refl _ _)
  · exact SameBut.refl _ _

theorem State.takeClear_frame (b : Bool) : SameBut s [.alarm, .line] (s.takeClear b) :=
  SameBut.ite s.returnToClear_frame (SameBut.refl _ _)

/-- The blocks the staff key may change. -/
abbrev keyBlocks : List Block := [.startup, .field, .alarm, .line]

theorem State.keyToAck_frame : SameBut s [.alarm, .line] s.keyToAck :=
  SameBut.ite (SameBut.then s.acknowledge_frame (State.offer_frame _ _) (by simp) (by simp)) s.acknowledge_frame

theorem State.keyRequest_frame (a b : KeyPosition) : SameBut s [.field] (s.keyRequest a b) :=
  SameBut.ite (SameBut.ite (s.raiseRequest_frame _) (SameBut.ite (s.raiseRequest_frame _) (SameBut.refl _ _)))
    (SameBut.refl _ _)

theorem State.keyMoved_frame (a b : KeyPosition) : SameBut s keyBlocks (s.keyMoved a b) :=
  SameBut.then (SameBut.ite s.keyToAck_frame (SameBut.refl _ _)) (State.keyRequest_frame _ _ _) (by simp) (by simp)

theorem State.sampleKey_frame (r : Option KeyPosition) : SameBut s keyBlocks (s.sampleKey r) := by
  unfold State.sampleKey
  refine SameBut.ite (SameBut.ite ?_ ?_) (SameBut.refl _ _)
  · unfold State.nextKey
    split
    · exact (s.withStartup_frame _).mono (by simp)
    · exact SameBut.ite ((s.withStartup_frame _).mono (by simp)) (SameBut.ite
        (SameBut.then (s.withStartup_frame _) (State.keyMoved_frame _ _ _) (by simp) (by simp))
        ((s.withStartup_frame _).mono (by simp)))
  · unfold State.firstKey
    exact SameBut.trans ((s.withStartup_frame _).mono (by simp)) (SameBut.ite
      ((State.raiseRequest_frame _ _).mono (by simp)) (SameBut.refl _ _))

/-- The blocks the lane monitor and the staff key may change. -/
abbrev inputBlocks : List Block := .lane :: .startup :: .field :: opened

theorem State.keyAt_frame (p q : KeyPlace) (r : Option KeyPosition) : SameBut s keyBlocks (s.keyAt p q r) :=
  SameBut.ite (s.sampleKey_frame r) (SameBut.refl _ _)

theorem State.takeLaneEvent_frame (ev : LaneEvent) (x : TickOrder) (r : Option KeyPosition) :
    SameBut s inputBlocks (s.takeLaneEvent ev x r) := by
  unfold State.takeLaneEvent
  refine SameBut.ite ?_ ?_
  · exact SameBut.then (SameBut.then (s.takeClear_frame _) (State.keyAt_frame _ _ _ _) (ds := inputBlocks) (by simp) (by simp))
      (State.takePassage_frame _ _) (by simp) (by simp)
  · exact SameBut.then (SameBut.then (s.takePassage_frame _) (State.keyAt_frame _ _ _ _) (ds := inputBlocks) (by simp) (by simp))
      (State.takeClear_frame _ _) (by simp) (by simp)

theorem State.sampleBeams_frame (i o : Bool) (x : TickOrder) (r : Option KeyPosition) :
    SameBut s inputBlocks (s.sampleBeams i o x r) :=
  SameBut.then (s.withLane_frame _) (State.takeLaneEvent_frame _ _ _ _) (by simp) (by simp)

theorem State.sampleInputs_frame (i o : Bool) (x : TickOrder) (r : Option KeyPosition) :
    SameBut s inputBlocks (s.sampleInputs i o x r) :=
  SameBut.then (SameBut.then (s.keyAt_frame _ _ _) (State.sampleBeams_frame _ _ _ _ _) (ds := inputBlocks) (by simp) (by simp))
    (State.keyAt_frame _ _ _ _) (by simp) (by simp)

theorem State.toFilterTick_frame : SameBut s [.cadence] s.toFilterTick := by
  unfold State.toFilterTick
  exact SameBut.trans (s.toTick_frame _) (State.withCadence_frame _ _)

/-- The blocks the line and the passing of time may change. -/
abbrev lineBlocks : List Block := [.cadence, .line]

theorem State.takeEdge_frame (e : Edge) : SameBut s lineBlocks (s.takeEdge e) :=
  SameBut.then (s.toMoment_frame _) (State.withLine_frame _ _) (by simp) (by simp)

theorem State.takeEdges_frame (gap blind : Nat) : ∀ (s : State) (edges : List Edge),
    SameBut s lineBlocks (s.takeEdges gap blind edges)
  | s, [] => (s.withLine_frame _).mono (by simp)
  | s, e :: es => SameBut.ite (SameBut.trans (s.takeEdge_frame e) (State.takeEdges_frame gap blind _ es))
      ((s.withLine_frame _).mono (by simp))

theorem State.readEdges_frame (gap blind : Nat) : SameBut s lineBlocks (s.readEdges gap blind) :=
  SameBut.ite (SameBut.refl _ _) (State.takeEdges_frame _ _ _ _)

theorem State.startLead_frame : SameBut s [.line] s.startLead := SameBut.ite (s.withLine_frame _) (SameBut.refl _ _)

theorem State.awaitLead_frame : SameBut s [.line] s.awaitLead := by
  unfold State.awaitLead
  split
  · exact s.withLine_frame _
  · exact SameBut.refl _ _

theorem State.loseMark_frame : SameBut s lineBlocks s.loseMark := by
  unfold State.loseMark
  exact SameBut.then (SameBut.then (s.toMoment_frame _) (State.withLine_frame _ _) (ds := lineBlocks) (by simp) (by simp))
    (State.withCadence_frame _ _) (by simp) (by simp)

theorem State.takeBreak_frame : SameBut s lineBlocks s.takeBreak := by
  unfold State.takeBreak
  exact SameBut.then (s.withCadence_frame _) (State.withLine_frame _ _) (by simp) (by simp)

theorem State.endOwnBreak_frame (m : Nat) : SameBut s lineBlocks (s.endOwnBreak m) := by
  unfold State.endOwnBreak
  refine SameBut.ite ?_ ?_
  · exact SameBut.then (SameBut.then (s.toMoment_frame _) (State.takeBreak_frame _) (ds := lineBlocks) (by simp) (by simp))
      (State.awaitLead_frame _) (by simp) (by simp)
  · exact SameBut.then (SameBut.then s.loseMark_frame (State.toMoment_frame _ _) (ds := lineBlocks) (by simp) (by simp))
      (State.takeBreak_frame _) (by simp) (by simp)

theorem State.beginMark_frame : SameBut s [.cadence, .line] s.beginMark := by
  unfold State.beginMark
  exact SameBut.then (SameBut.then (s.withLine_frame _) (State.withLine_frame _ _) (ds := [.line]) (by simp) (by simp))
    (State.withCadence_frame _ _) (by simp) (by simp)

theorem State.collide_frame (q : Queued) : SameBut s [.cadence, .line] (s.collide q) :=
  SameBut.ite (SameBut.then (s.withLine_frame _) (State.withCadence_frame _ _) (by simp) (by simp))
    ((s.withLine_frame _).mono (by simp))

theorem State.sentReport_frame (n : Notice) : SameBut s [.cadence, .adj] (s.sentReport n) := by
  unfold State.sentReport
  split
  · exact (s.startDeadline_frame _).mono (by simp)
  · exact (s.startHold_frame _).mono (by simp)
  · exact (s.withCadence_frame _).mono (by simp)
  · exact SameBut.refl _ _

theorem State.discardOwn_frame : SameBut s [.line, .cadence] s.discardOwn := by
  unfold State.discardOwn
  split
  · exact s.dropAssembly_frame
  · exact SameBut.refl _ _

theorem State.beginAssembly_frame (b : Byte) : SameBut s [.line, .cadence] (s.beginAssembly b) := by
  unfold State.beginAssembly
  exact SameBut.then (SameBut.then s.dropAssembly_frame (State.withLine_frame _ _) (ds := [.line, .cadence]) (by simp)
    (by simp)) (State.withCadence_frame _ _) (by simp) (by simp)

theorem State.takeCharacter_frame (b : Byte) : SameBut s [.line, .cadence] (s.takeCharacter b) := by
  unfold State.takeCharacter
  split
  · exact SameBut.ite s.dropAssembly_frame ((s.withLine_frame _).mono (by simp))
  · exact SameBut.refl _ _
  · exact SameBut.refl _ _

theorem State.takeSlot_frame (w e : Channel) : SameBut s [.sightings] (s.takeSlot w e) := by
  unfold State.takeSlot
  refine SameBut.ite (SameBut.refl _ _) ?_
  split
  · exact s.withSightings_frame _
  · exact SameBut.refl _ _
  · exact SameBut.refl _ _

theorem State.takeStatus_frame (p : Nat) (f : StatusFlags) (c : AlarmClass) (a : Bool) :
    SameBut s [.neighbours] (s.takeStatus p f c a) := s.withNeighbours_frame _

theorem State.takeAlarm_frame (p : Nat) (l : Byte) (c : AlarmClass) (a : Bool) :
    SameBut s [.neighbours] (s.takeAlarm p l c a) := SameBut.ite (s.withNeighbours_frame _) (SameBut.refl _ _)

theorem State.takeVerdict_frame (i l : Byte) (es : List VerdictEntry) :
    SameBut s [.sightings, .adj] (s.takeVerdict i l es) :=
  SameBut.then (s.withSightings_frame _) (State.withAdj_frame _ _) (by simp) (by simp)

theorem State.takeEvidence_frame (i : Byte) (p : BitVec 4) (f : Bool) (es : List EvidenceEntry) :
    SameBut s weighed (s.takeEvidence i p f es) := by
  unfold State.takeEvidence
  split
  · exact SameBut.ite (SameBut.then (s.withList_frame _) (State.weighListed_frame _ _ _) (by simp) (by simp))
      ((s.withList_frame _).mono (by simp))
  · exact SameBut.refl _ _

end Operations

/-- The command answers a next state in which only the named blocks may differ. -/
def Moves (bs : List Block) (c : Instr) (s : State) : Prop := ∃ t, exec c s = .next t ∧ SameBut s bs t

section Commands

variable (s : State)

theorem exec_powerOnReset_moves : Moves everyBlock .powerOnReset s := ⟨_, rfl, SameBut.every rfl⟩
theorem exec_serviceReset_moves : Moves everyBlock .serviceReset s := ⟨_, rfl, SameBut.every rfl⟩
theorem exec_resetEnd_moves : Moves [.startup, .cadence] .resetEnd s :=
  ⟨_, rfl, SameBut.ite (SameBut.then (s.withStartup_frame _) (State.withCadence_frame _ _) (by simp) (by simp))
    (SameBut.refl _ _)⟩
theorem State.toNoResponse_frame (k : NoResponse) : SameBut s [.cadence] (s.toNoResponse k) := by
  cases k with
  | noAcknowledge w n => exact SameBut.ite (s.waitBits_frame _) (s.toTick_frame _)
  | timeout n => exact s.toTick_frame _
theorem exec_strapsSample_moves (p : BitVec 4) (r : Bool) : Moves [.startup, .cadence] (.strapsSample p r) s :=
  ⟨_, rfl, SameBut.ite (SameBut.then (s.toTick_frame _) (SameBut.ite (State.withStartup_frame _ _) (State.withStartup_frame _ _))
    (by simp) (by simp)) (SameBut.refl _ _)⟩
theorem exec_configTransferComplete_moves (w : Nat) (b : List Byte) :
    Moves [.cadence, .line, .startup] (.configTransferComplete w b) s :=
  ⟨_, rfl, SameBut.ite (SameBut.ite (SameBut.then (s.waitBits_frame _) (State.finishConfig_frame _ _ _) (by simp) (by simp))
    (SameBut.then (s.toTick_frame _) (State.finishConfig_frame _ _ _) (by simp) (by simp))) (SameBut.refl _ _)⟩
theorem exec_configNoResponse_moves (k : NoResponse) :
    Moves [.cadence, .line, .startup] (.configNoResponse k) s :=
  ⟨_, rfl, SameBut.ite (SameBut.then (s.toNoResponse_frame k) (State.finishConfig_frame _ _ _) (by simp) (by simp))
    (SameBut.refl _ _)⟩
theorem exec_supplyHold_moves (w : Nat) :
    Moves [.cadence, .field, .sightings, .line, .adj, .startup] (.supplyHold w) s := by
  refine ⟨_, rfl, ?_⟩
  split
  · exact SameBut.then (s.waitBits_frame w) (State.enterHold_frame _ _) (by simp) (by simp)
  · exact SameBut.ite ((s.withStartup_frame _).mono (by simp)) (SameBut.refl _ _)
theorem exec_holdResume_moves : Moves [.cadence, .lane, .neighbours, .line, .startup] .holdResume s := by
  refine ⟨_, rfl, SameBut.ite ?_ (SameBut.refl _ _)⟩
  split
  · exact SameBut.then s.resume_frame (State.withStartup_frame _ _) (by simp) (by simp)
  · exact SameBut.then s.resume_frame (State.withStartup_frame _ _) (by simp) (by simp)
  · exact SameBut.then s.resume_frame (State.beginListening_frame _ _) (by simp) (by simp)
  · exact SameBut.refl _ _
theorem exec_listeningExpiry_moves : Moves joinBlocks .listeningExpiry s := by
  refine ⟨_, rfl, SameBut.ite ?_ (SameBut.refl _ _)⟩
  exact SameBut.then (SameBut.then (s.toTick_frame _) (State.withCadence_frame _ _) (ds := [.cadence]) (by simp) (by simp))
    (State.joinAt_frame _ _ _ _) (by simp) (by simp)
theorem exec_frameStart_moves (v : StatusView) : Moves frameBlocks (.frameStart v) s := by
  refine ⟨_, rfl, SameBut.ite ?_ (SameBut.refl _ _)⟩
  exact SameBut.then (SameBut.then (s.toOffset_frame _) (State.frameStartEvent_frame _ _ _ _ _ _) (ds := frameBlocks) (by simp)
    (by simp)) (State.finishOffers_frame _ _) (by simp) (by simp)
theorem exec_markSend_moves : Moves [.cadence, .line, .adj, .sightings] .markSend s := by
  refine ⟨_, rfl, SameBut.trans ((s.readEdges_frame 12 Config.unitsPerBit).mono (by simp)) ?_⟩
  refine SameBut.ite (SameBut.ite ?_ (SameBut.refl _ _)) (SameBut.refl _ _)
  exact SameBut.then (SameBut.then (State.toMoment_frame _ _) (State.beginMark_frame _) (ds := lineBlocks) (by simp)
    (by simp)) (State.finishOffers_frame _ _) (by simp) (by simp)
theorem exec_markAbandon_moves : Moves [.cadence] .markAbandon s :=
  ⟨_, rfl, SameBut.ite (SameBut.trans (SameBut.ite (s.toOffset_frame _) (SameBut.refl _ _)) (State.withCadence_frame _ _))
    (SameBut.refl _ _)⟩
theorem exec_breakReleaseTimeout_moves : Moves [.cadence, .line] .breakReleaseTimeout s :=
  ⟨_, rfl, SameBut.ite s.loseMark_frame (SameBut.refl _ _)⟩
theorem exec_transmitWindowEnd_moves : Moves [.cadence, .field] .transmitWindowEnd s :=
  ⟨_, rfl, SameBut.ite (SameBut.then (s.toOffset_frame _) (State.withField_frame _ _) (by simp) (by simp))
    (SameBut.refl _ _)⟩
theorem exec_slotEnd_moves (j : Nat) (w e : List Nat) (x y : List (List Bool)) :
    Moves [.cadence, .sightings] (.slotEnd j w e x y) s :=
  ⟨_, rfl, SameBut.ite (SameBut.then (SameBut.trans (s.toOffset_frame _) (State.withCadence_frame _ _))
    (State.takeSlot_frame _ _ _) (by simp) (by simp)) (SameBut.refl _ _)⟩
theorem exec_coilCheck_moves (w e : Nat) : Moves [.cadence, .sampler] (.coilCheck w e) s :=
  ⟨_, rfl, SameBut.ite (SameBut.then (SameBut.trans (s.toOffset_frame _) (State.withCadence_frame _ _))
    (State.withSampler_frame _ _) (by simp) (by simp)) (SameBut.refl _ _)⟩
theorem exec_recordFade_moves (x : Ties) : Moves opened (.recordFade x) s :=
  ⟨_, rfl, SameBut.ite (SameBut.trans ((s.withSightings_frame (fadeRecords s.stamp s.sightings)).mono (by simp))
    (SameBut.foldl (fun u r => u.deliverFade_frame x r) _ _)) ((s.withSightings_frame _).mono (by simp))⟩
theorem exec_recordAgeFree_moves : Moves [.sightings] .recordAgeFree s := ⟨_, rfl, s.withSightings_frame _⟩
theorem exec_strayMark_moves : Moves [.sightings] .strayMark s := ⟨_, rfl, s.withSightings_frame _⟩
theorem exec_filterTick_moves (i o a k : Bool) (r : TickOrder) :
    Moves (.cadence :: .lane :: .startup :: .field :: opened) (.filterTick i o a k r) s := by
  refine ⟨_, rfl, SameBut.ite (SameBut.ite ?_ (s.toFilterTick_frame.mono (by simp))) (SameBut.refl _ _)⟩
  exact SameBut.trans (s.toFilterTick_frame.mono (by simp)) (SameBut.trans ((State.sampleInputs_frame _ _ _ _ _).mono (by simp))
    ((State.finishOffers_frame _ _).mono (by simp)))
theorem exec_beamStuck_moves : Moves [.lane] .beamStuck s := ⟨_, rfl, s.withLane_frame _⟩
theorem exec_breakRecognized_moves (l : LowSpell) : Moves [.cadence, .line] (.breakRecognized l) s :=
  ⟨_, rfl, SameBut.ite (SameBut.refl _ _) (SameBut.ite (s.endOwnBreak_frame _) (SameBut.ite
    (SameBut.then (SameBut.then (s.waitBits_frame _) (State.startLead_frame _) (ds := lineBlocks) (by simp) (by simp))
      (State.takeBreak_frame _) (by simp) (by simp)) (SameBut.refl _ _)))⟩
theorem exec_quietEnd_moves : Moves [.cadence, .line] .quietEnd s := by
  refine ⟨_, rfl, ?_⟩
  split
  · exact SameBut.then (s.toMoment_frame _) (State.withLine_frame _ _) (by simp) (by simp)
  · exact SameBut.refl _ _
theorem exec_framingError_moves (l : LostCharacter) : Moves [.cadence, .line] (.framingError l) s := by
  refine ⟨_, rfl, SameBut.ite (SameBut.refl _ _) ?_⟩
  refine SameBut.trans ?_ ((State.withLine_frame _ _).mono (by simp))
  refine SameBut.trans ?_ ((State.dropBreak_frame _).mono (by simp))
  exact SameBut.then (s.waitBits_frame _) (State.dropAssembly_frame _) (by simp) (by simp)
theorem exec_receiverIdleTimeout_moves : Moves [.cadence, .line] .receiverIdleTimeout s := by
  refine ⟨_, rfl, SameBut.trans (s.readEdges_frame 11 1) ?_⟩
  dsimp only
  split
  · exact SameBut.ite (SameBut.refl _ _) (SameBut.then (State.toMoment_frame _ _) (State.dropAssembly_frame _) (by simp)
      (by simp))
  · exact SameBut.refl _ _
theorem exec_noticeStart_moves : Moves [.cadence, .line] .noticeStart s := by
  refine ⟨_, rfl, SameBut.trans (s.readEdges_frame s.idleGap Config.unitsPerBit) (SameBut.ite ?_ (SameBut.refl _ _))⟩
  split
  · exact SameBut.then (State.toMoment_frame _ _) (State.withLine_frame _ _) (by simp) (by simp)
  · exact SameBut.refl _ _
theorem exec_collision_moves (b : Nat) : Moves [.cadence, .line, .adj, .sightings] (.collision b) s := by
  refine ⟨_, rfl, ?_⟩
  split
  · refine SameBut.trans ?_ ((State.finishOffers_frame _ _).mono (by simp))
    refine SameBut.trans ?_ ((State.collide_frame _ _).mono (by simp))
    exact SameBut.then (s.toMoment_frame _) (State.startLead_frame _) (by simp) (by simp)
  · exact SameBut.refl _ _
theorem exec_noticeSent_moves : Moves [.cadence, .line, .adj, .sightings] .noticeSent s := by
  refine ⟨_, rfl, ?_⟩
  split
  · refine SameBut.trans ?_ ((State.finishOffers_frame _ _).mono (by simp))
    refine SameBut.trans ?_ ((State.sentReport_frame _ _).mono (by simp))
    refine SameBut.trans ?_ ((State.discardOwn_frame _).mono (by simp))
    refine SameBut.trans ?_ ((State.withLine_frame _ _).mono (by simp))
    exact SameBut.then (s.toMoment_frame _) (State.startLead_frame _) (by simp) (by simp)
  · exact SameBut.refl _ _
theorem exec_noticeInvalid_moves : Moves [.line, .cadence] .noticeInvalid s := by
  refine ⟨_, rfl, ?_⟩
  split
  · exact SameBut.ite s.dropAssembly_frame (SameBut.refl _ _)
  · exact SameBut.refl _ _
  · exact SameBut.refl _ _
theorem exec_receiveCadence_moves : Moves joinBlocks .receiveCadence s := by
  refine ⟨_, rfl, ?_⟩
  split
  · exact SameBut.then (SameBut.then (s.takeNotice_frame _) (State.hearCadence_frame _ _ _) (ds := joinBlocks) (by simp)
      (by simp)) (State.finishOffers_frame _ _) (by simp) (by simp)
  · exact SameBut.refl _ _
theorem exec_receiveStatus_moves : Moves heardBlocks .receiveStatus s := by
  refine ⟨_, rfl, ?_⟩
  split
  · exact SameBut.then (s.takeOther_frame _) (State.takeStatus_frame _ _ _ _ _) (by simp) (by simp)
  · exact SameBut.refl _ _
theorem exec_receiveCall_moves : Moves (.sightings :: heardBlocks) .receiveCall s := by
  refine ⟨_, rfl, ?_⟩
  split
  · refine SameBut.trans ((s.takeOther_frame (_ : Nat)).mono (by simp)) (SameBut.ite ?_ (SameBut.refl _ _))
    exact SameBut.then (State.offerAll_frame _ _) (State.finishOffers_frame _ _) (by simp) (by simp)
  · exact SameBut.refl _ _
theorem exec_receiveEvidence_moves : Moves (.sightings :: heardBlocks) .receiveEvidence s := by
  refine ⟨_, rfl, ?_⟩
  split
  · refine SameBut.trans ((s.takeOther_frame (_ : Nat)).mono (by simp)) (SameBut.ite ?_ (SameBut.refl _ _))
    exact SameBut.then (State.takeEvidence_frame _ _ _ _ _) (State.finishOffers_frame _ _) (by simp) (by simp)
  · exact SameBut.refl _ _
theorem exec_receiveVerdict_moves : Moves (.sightings :: heardBlocks) .receiveVerdict s := by
  refine ⟨_, rfl, ?_⟩
  split
  · exact SameBut.then (s.takeOther_frame _) (State.takeVerdict_frame _ _ _ _) (by simp) (by simp)
  · exact SameBut.refl _ _
theorem exec_receiveSettlement_moves : Moves (.carried :: heardBlocks) .receiveSettlement s := by
  refine ⟨_, rfl, ?_⟩
  split
  · exact SameBut.then (s.takeOther_frame _) (State.withCarried_frame _ _) (by simp) (by simp)
  · exact SameBut.refl _ _
theorem exec_receiveAlarm_moves : Moves heardBlocks .receiveAlarm s := by
  refine ⟨_, rfl, ?_⟩
  split
  · exact SameBut.then (s.takeOther_frame _) (State.takeAlarm_frame _ _ _ _ _) (by simp) (by simp)
  · exact SameBut.refl _ _
theorem exec_receiveAck_moves : Moves (.alarm :: .sightings :: heardBlocks) .receiveAck s := by
  refine ⟨_, rfl, ?_⟩
  split
  · refine SameBut.trans ((s.takeOther_frame (_ : Nat)).mono (by simp)) (SameBut.ite ?_ (SameBut.refl _ _))
    exact SameBut.then (State.acknowledge_frame _) (State.finishOffers_frame _ _) (by simp) (by simp)
  · exact SameBut.refl _ _
theorem exec_receiveJournalCall_moves : Moves (.alarm :: .sightings :: heardBlocks) .receiveJournalCall s := by
  refine ⟨_, rfl, ?_⟩
  split
  · refine SameBut.trans ((s.takeOther_frame (_ : Nat)).mono (by simp)) (SameBut.ite ?_ (SameBut.refl _ _))
    exact SameBut.then (State.answerJournal_frame _ _) (State.finishOffers_frame _ _) (by simp) (by simp)
  · exact SameBut.refl _ _
theorem exec_receiveJournal_moves : Moves heardBlocks .receiveJournal s := by
  refine ⟨_, rfl, ?_⟩
  split
  · exact s.takeOther_frame _
  · exact SameBut.refl _ _
theorem exec_evidenceDeadline_moves (x : Ties) : Moves weighed (.evidenceDeadline x) s :=
  ⟨_, rfl, SameBut.trans (SameBut.foldl (fun u i => u.weighId_frame x i) _ _) (State.finishOffers_frame _ _)⟩
theorem exec_holdExpiry_moves (x : Ties) : Moves opened (.holdExpiry x) s :=
  ⟨_, rfl, SameBut.then (SameBut.foldl (fun u a => u.settleListed_frame x a) _ _) (State.finishOffers_frame _ _) (by simp)
    (by simp)⟩
theorem exec_neighbourAbsent_moves : Moves [.neighbours] .neighbourAbsent s := ⟨_, rfl, s.withNeighbours_frame _⟩
theorem exec_lineSilent_moves : Moves [.neighbours] .lineSilent s :=
  ⟨_, rfl, SameBut.ite (s.withNeighbours_frame _) (SameBut.refl _ _)⟩
theorem exec_clashClear_moves : Moves [.neighbours] .clashClear s :=
  ⟨_, rfl, SameBut.ite (s.withNeighbours_frame _) (SameBut.refl _ _)⟩
theorem exec_claimExpiry_moves : Moves [.adj] .claimExpiry s := ⟨_, rfl, s.withAdj_frame _⟩
theorem exec_carriedInExpiry_moves : Moves [.carried] .carriedInExpiry s := ⟨_, rfl, s.withCarried_frame _⟩
theorem exec_characterReceived_moves (w : Nat) (v : BitVec 10) (k : Bool) :
    Moves [.line, .cadence] (.characterReceived w v k) s := by
  refine ⟨_, rfl, SameBut.ite (SameBut.refl _ _) ?_⟩
  split
  · refine SameBut.trans ?_ (SameBut.ite (State.beginAssembly_frame _ _) (State.takeCharacter_frame _ _))
    exact SameBut.then (SameBut.then (s.waitBits_frame _) (State.startLead_frame _) (ds := [.line, .cadence]) (by simp)
      (by simp)) (State.withLine_frame _ _) (by simp) (by simp)
  · exact SameBut.refl _ _
  · exact SameBut.refl _ _

end Commands

end Sys2Proof.Machine
end

