-- ==== Sys2Proof/Laws/Lists.lean ====
section
/-! SUPPORT. The list operations of Machine/Ops.lean: what they pick, and what they keep. -/

namespace Sys2Proof.Machine

variable {α : Type}

theorem pickBest_mem (better : α → α → Bool) : ∀ {l : List α} {x : α}, pickBest better l = some x → x ∈ l
  | y :: ys, x, h => by
    unfold pickBest at h
    split at h
    · simp_all
    · rename_i z hz
      have := pickBest_mem better hz
      split at h <;> simp_all

theorem pickBest_none (better : α → α → Bool) : ∀ {l : List α}, pickBest better l = none → l = []
  | [], _ => rfl
  | y :: ys, h => by
    unfold pickBest at h
    split at h
    · simp at h
    · split at h <;> simp at h

@[simp] theorem mem_insertBy (before : α → α → Bool) (x y : α) : ∀ (l : List α), y ∈ insertBy before x l ↔ y = x ∨ y ∈ l
  | [] => by simp [insertBy]
  | z :: zs => by
    unfold insertBy
    split
    · simp
    · simp [mem_insertBy before x y zs, or_left_comm]

@[simp] theorem mem_sortBy (before : α → α → Bool) (y : α) : ∀ (l : List α), y ∈ sortBy before l ↔ y ∈ l
  | [] => by simp [sortBy]
  | z :: zs => by simp [sortBy, mem_sortBy before y zs]

@[simp] theorem insertBy_length (before : α → α → Bool) (x : α) : ∀ (l : List α),
    (insertBy before x l).length = l.length + 1
  | [] => rfl
  | z :: zs => by
    unfold insertBy
    split
    · simp
    · simp [insertBy_length before x zs]

@[simp] theorem sortBy_length (before : α → α → Bool) : ∀ (l : List α), (sortBy before l).length = l.length
  | [] => rfl
  | z :: zs => by simp [sortBy, sortBy_length before zs]

/-- Taking out at least one element makes room for one. -/
theorem filter_length_lt_of_mem {p : α → Bool} {l : List α} {x : α} (hx : x ∈ l) (hp : p x = false) :
    (l.filter p).length < l.length := by
  have : (l.filter p).length ≠ l.length := by
    intro h
    have := (List.length_filter_eq_length_iff).1 h x hx
    simp_all
  have := List.length_filter_le p l
  omega

end Sys2Proof.Machine
end

