-- ==== Sys2Proof/Laws/Capacity.lean ====
section
/-! SUPPORT. The bounded lists: each operation on one keeps its bound (R46, R111, R125, R143, R151, R173). -/

namespace Sys2Proof.Machine

/-! ### Each list -/

/-- The place to drop is a place of the list. -/
theorem dropPlace_lt : ∀ {l : List Queued} {i j p : Nat}, dropPlace l i = some (j, p) → i ≤ j ∧ j < i + l.length
  | q :: qs, i, j, p, h => by
    unfold dropPlace at h
    split at h
    · split at h <;> simp at h
      simp [h.1]
    · rename_i j' p' h'
      have := dropPlace_lt h'
      split at h <;> simp at h <;> simp <;> omega

/-- An offer keeps at most 12 notices (R111). -/
theorem offerTo_length {l : List Queued} (q : Queued) (h : l.length ≤ 12) : (offerTo l q).1.length ≤ 12 := by
  unfold offerTo
  split
  · rename_i hl
    simp [maxQueue] at hl ⊢
    omega
  · split
    · exact h
    · rename_i i p hp
      have := dropPlace_lt hp
      simp only [List.length_append, List.length_singleton, Nat.zero_add] at this
      rw [List.length_eraseIdx]
      simp only [List.length_append, List.length_singleton]
      split <;> omega

theorem RowLine.offer_length (l : RowLine) (q : Queued) (h : l.queue.length ≤ 12) : (l.offer q).queue.length ≤ 12 :=
  offerTo_length q h

theorem withdrawFrom_length (p : Notice → Bool) (l : List Queued) : (withdrawFrom p l).length ≤ l.length :=
  List.length_filterMap_le _ _

/-- Claims stay at most 32 (R143). -/
theorem addClaim_length (c : Claim) {l : List Claim} (h : l.length ≤ 32) : (addClaim c l).length ≤ 32 := by
  unfold addClaim
  split
  · simpa using h
  · split
    · rename_i hl
      simp [maxClaims] at hl ⊢
      omega
    · split
      · rename_i out ho
        have := filter_length_lt_of_mem (p := fun x => !out.same x) (pickBest_mem _ ho) (by simp [Claim.same])
        simp
        omega
      · rename_i hn
        simp [pickBest_none _ hn]

theorem addClaims_length (cs : List Claim) : ∀ {l : List Claim}, l.length ≤ 32 → (addClaims cs l).length ≤ 32 := by
  unfold addClaims
  induction cs with
  | nil => exact fun h => h
  | cons c cs ih => exact fun h => ih (addClaim_length c h)

/-- The carried-in list holds at most 32 entries (R151). -/
theorem carryIn_length (g : Nat) (x : Serial) {l : List CarriedEntry} (h : l.length ≤ 32) : (carryIn g x l).length ≤ 32 := by
  unfold carryIn
  split
  · simpa using h
  · split
    · rename_i hl
      simp [maxCarried] at hl ⊢
      omega
    · split
      · rename_i out ho
        have := filter_length_lt_of_mem (p := fun e => decide (e.serial ≠ out.serial)) (pickBest_mem _ ho) (by simp)
        simp only [ne_eq, decide_not] at this
        simp
        omega
      · rename_i hn
        simp [pickBest_none _ hn]

theorem applySettlement_length (g : Nat) (es : List SettledEntry) :
    ∀ {l : List CarriedEntry}, l.length ≤ 32 → (applySettlement g es l).length ≤ 32 := by
  unfold applySettlement
  induction es with
  | nil => exact fun h => h
  | cons e es ih =>
    refine fun h => ih ?_
    unfold applySettled
    split
    · exact carryIn_length _ _ h
    · exact (List.length_filter_le _ _).trans h
    all_goals exact h

theorem countGraces_length (l : List CarriedEntry) : (countGraces l).length ≤ l.length := by
  simpa [countGraces] using List.length_filter_le _ _

theorem countClaims_length (l : List Claim) : (countClaims l).length ≤ l.length := by
  simpa [countClaims] using List.length_filter_le _ _

/-- The journal holds at most 32 entries (R173). -/
theorem appendJournal_length (e : JournalEntry) {j : List JournalEntry} (h : j.length ≤ 32) :
    (appendJournal e j).length ≤ 32 := by
  unfold appendJournal
  split <;> simp [maxJournal] at * <;> omega

theorem appendAll_length (es : List JournalEntry) :
    ∀ {j : List JournalEntry}, j.length ≤ 32 → (es.foldl (fun j e => appendJournal e j) j).length ≤ 32 := by
  induction es with
  | nil => exact fun h => h
  | cons e es ih => exact fun h => ih (appendJournal_length e h)

/-- At most 24 records are kept of a snapshot (R127, R131). -/
theorem keepLargest_length (key : Record → Nat) (n : Nat) (l : List Record) : (keepLargest key n l).length ≤ n := by
  unfold keepLargest
  split
  · assumption
  · simp [List.length_take]

/-- An adjudication holds at most 24 candidates (R135). -/
theorem mergeEntry_length (e : EvidenceEntry) {cs : List Candidate} (h : cs.length ≤ 24) : (mergeEntry cs e).length ≤ 24 := by
  unfold mergeEntry
  split
  · simpa using h
  · split
    · rename_i hl
      simp [maxCandidates] at hl ⊢
      omega
    · split
      · rename_i out ho
        split
        · have := filter_length_lt_of_mem (p := fun c => decide (c.serial ≠ out.serial)) (pickBest_mem _ ho) (by simp)
          simp only [ne_eq, decide_not] at this
          simp
          omega
        · exact h
      · exact h

theorem mergeAll_length (es : List EvidenceEntry) :
    ∀ {cs : List Candidate}, cs.length ≤ 24 → (es.foldl mergeEntry cs).length ≤ 24 := by
  induction es with
  | nil => exact fun h => h
  | cons e es ih => exact fun h => ih (mergeEntry_length e h)

/-- The sighting table holds at most 48 records (R46). -/
theorem applyReply_length (m : Nat) (r : Reply) {t : List Record} (h : t.length ≤ 48) : (applyReply m r t).length ≤ 48 := by
  unfold applyReply
  split
  · simpa using h
  · split
    · rename_i hl
      simp [maxRecords, insertRecord] at hl ⊢
      omega
    · split
      · rename_i out ho
        have hm : out ∈ t := by
          unfold evictee at ho
          split at ho
          · rename_i x hx
            simp only [Option.some.injEq] at ho
            exact ho ▸ (List.mem_filter.1 (pickBest_mem _ hx)).1
          · exact (List.mem_filter.1 (pickBest_mem _ ho)).1
        have := filter_length_lt_of_mem (p := fun x => decide (x.serial ≠ out.serial)) hm (by simp)
        simp only [ne_eq, decide_not] at this
        simp [insertRecord, freeSerial]
        omega
      · exact h

theorem markOne_length (now : Stamp) (x : Serial) (t : List Record) : (markOne now x t).length ≤ t.length := by
  unfold markOne
  simp only [List.length_map]
  split
  · exact Nat.le_refl _
  · split
    · exact List.length_filter_le _ _
    · exact Nat.le_refl _

theorem markStrays_length (a : Nat) (now : Stamp) (t : List Record) : (markStrays a now t).length ≤ t.length := by
  unfold markStrays
  generalize sortBy _ _ = l
  induction l generalizing t with
  | nil => exact Nat.le_refl _
  | cons r l ih => exact (ih _).trans (markOne_length _ _ _)

/-! ### The adjudication list -/

theorem replaceAdj_length (a : Adjudication) (l : List Adjudication) : (replaceAdj a l).length = l.length := by
  simp [replaceAdj]

theorem removeAdj_length (i : Byte) (l : List Adjudication) : (removeAdj i l).length ≤ l.length := List.length_filter_le _ _

theorem mem_removeAdj {i : Byte} {l : List Adjudication} {a : Adjudication} (h : a ∈ removeAdj i l) : a ∈ l :=
  (List.mem_filter.1 h).1

theorem mem_replaceAdj {a b : Adjudication} {l : List Adjudication} (h : b ∈ replaceAdj a l) : b = a ∨ b ∈ l := by
  unfold replaceAdj at h
  obtain ⟨c, hc, h⟩ := List.mem_map.1 h
  split at h
  · exact .inl h.symm
  · exact .inr (h ▸ hc)

theorem removeAdj_length_lt {a : Adjudication} {l : List Adjudication} (h : a ∈ l) :
    (removeAdj a.callId l).length < l.length :=
  filter_length_lt_of_mem h (by simp)

@[simp] theorem Scales.weigh_length (x : Scales) (a : Adjudication) :
    (x.weigh a).candidates.length = a.candidates.length := by
  simp [Scales.weigh]

/-! ### The operations on the state -/

section Keep

variable {s : State}

/-- Only the sizes matter. -/
theorem State.WithinCapacity.of_same {t : State} (h : s.WithinCapacity) (a : t.sightings = s.sightings)
    (b : t.line.queue.length ≤ s.line.queue.length) (c : t.adj = s.adj) (d : t.carried = s.carried)
    (e : t.alarm.journal.length ≤ s.alarm.journal.length) : t.WithinCapacity :=
  ⟨a ▸ h.records, b.trans h.queue, c ▸ h.adjudications, c ▸ h.candidates, c ▸ h.claims, d ▸ h.carried, e.trans h.journal⟩

theorem State.withLine_capacity (h : s.WithinCapacity) {l : RowLine} (hl : l.queue.length ≤ 12) :
    (s.withLine l).WithinCapacity :=
  ⟨h.records, hl, h.adjudications, h.candidates, h.claims, h.carried, h.journal⟩

theorem State.withList_capacity (h : s.WithinCapacity) {l : List Adjudication} (hl : l.length ≤ 4)
    (hc : ∀ a ∈ l, a.candidates.length ≤ 24) : (s.withList l).WithinCapacity :=
  ⟨h.records, h.queue, hl, hc, h.claims, h.carried, h.journal⟩

theorem State.withAlarm_capacity (h : s.WithinCapacity) {a : AlarmUnit} (ha : a.journal.length ≤ 32) :
    (s.withAlarm a).WithinCapacity :=
  ⟨h.records, h.queue, h.adjudications, h.candidates, h.claims, h.carried, ha⟩

theorem State.withSightings_capacity (h : s.WithinCapacity) {l : List Record} (hl : l.length ≤ 48) :
    (s.withSightings l).WithinCapacity :=
  ⟨hl, h.queue, h.adjudications, h.candidates, h.claims, h.carried, h.journal⟩

theorem State.withCarried_capacity (h : s.WithinCapacity) {l : List CarriedEntry} (hl : l.length ≤ 32) :
    (s.withCarried l).WithinCapacity :=
  ⟨h.records, h.queue, h.adjudications, h.candidates, h.claims, hl, h.journal⟩

theorem State.withClaims_capacity (h : s.WithinCapacity) {l : List Claim} (hl : l.length ≤ 32) :
    (s.withAdj { s.adj with claims := l }).WithinCapacity :=
  ⟨h.records, h.queue, h.adjudications, h.candidates, hl, h.carried, h.journal⟩

theorem State.offer_capacity (h : s.WithinCapacity) (n : Notice) : (s.offer n).WithinCapacity := by
  unfold State.offer
  split
  · exact h
  · exact s.withLine_capacity h (RowLine.offer_length _ _ h.queue)

theorem State.offerAll_capacity (h : s.WithinCapacity) (ns : List Notice) : (s.offerAll ns).WithinCapacity := by
  unfold State.offerAll
  induction ns generalizing s with
  | nil => exact h
  | cons n ns ih => exact ih (State.offer_capacity h n)

theorem State.withdraw_capacity (h : s.WithinCapacity) (p : Notice → Bool) : (s.withdraw p).WithinCapacity :=
  s.withLine_capacity h ((withdrawFrom_length _ _).trans h.queue)

theorem State.abandonAll_capacity (h : s.WithinCapacity) : s.abandonAll.WithinCapacity :=
  State.withList_capacity (State.withdraw_capacity h _) (by simp) (by simp)

theorem State.mapList_capacity (h : s.WithinCapacity) {f : Adjudication → Adjudication}
    (hf : ∀ a, (f a).candidates.length = a.candidates.length) : (s.withList (s.adj.list.map f)).WithinCapacity :=
  State.withList_capacity h (by simpa using h.adjudications) (fun a ha => by
    obtain ⟨b, hb, rfl⟩ := List.mem_map.1 ha
    exact hf b ▸ h.candidates b hb)

theorem State.startHold_capacity (h : s.WithinCapacity) (id : Byte) : (s.startHold id).WithinCapacity :=
  State.mapList_capacity h (fun a => by split <;> rfl)

theorem State.startDeadline_capacity (h : s.WithinCapacity) (id : Byte) : (s.startDeadline id).WithinCapacity :=
  State.mapList_capacity h (fun a => by split <;> rfl)

theorem State.giveVerdict_capacity (h : s.WithinCapacity) (ties : Ties) (w : Adjudication) :
    (s.giveVerdict ties w).WithinCapacity := by
  have h1 := State.offerAll_capacity h w.verdicts
  have h2 := State.withClaims_capacity h1
    (addClaims_length (w.claims (if ties.claims then claimFrames - 1 else claimFrames)) h1.claims)
  exact State.withSightings_capacity h2 (by simpa [resetRecords] using h2.records)

theorem State.weighListed_capacity (h : s.WithinCapacity) (ties : Ties) {a : Adjudication} (ha : a.candidates.length ≤ 24) :
    (s.weighListed ties a).WithinCapacity := by
  unfold State.weighListed
  dsimp only
  split
  · exact State.withList_capacity h ((removeAdj_length _ _).trans h.adjudications)
      (fun b hb => h.candidates b (mem_removeAdj hb))
  · refine State.giveVerdict_capacity (State.withList_capacity h ?_ ?_) _ _
    · simpa [replaceAdj_length] using h.adjudications
    · intro b hb
      rcases mem_replaceAdj hb with rfl | hb
      · simpa using ha
      · exact h.candidates b hb

theorem State.dropReport_capacity (h : s.WithinCapacity) (ties : Ties) (n : Notice) :
    (s.dropReport ties n).WithinCapacity := by
  unfold State.dropReport
  split
  · split
    · rename_i a ha
      exact State.weighListed_capacity h _ (h.candidates a (List.mem_of_find?_eq_some ha))
    · exact h
  · exact State.startHold_capacity h _
  · exact h

theorem State.takeReports_capacity (ties : Ties) : ∀ (fuel : Nat) {s : State}, s.WithinCapacity →
    (s.takeReports ties fuel).WithinCapacity
  | 0, _, h => h
  | fuel + 1, s, h => by
    unfold State.takeReports
    split
    · exact h
    · rename_i rest _
      exact State.takeReports_capacity ties fuel
        (State.dropReport_capacity (s.withLine_capacity h (l := { s.line with dropped := rest }) h.queue) _ _)

theorem State.finishOffers_capacity (h : s.WithinCapacity) (ties : Ties) : (s.finishOffers ties).WithinCapacity :=
  State.takeReports_capacity ties _ h

theorem State.changeLatch_capacity (h : s.WithinCapacity) (l : Latch) (c : LatchChange) :
    (s.changeLatch l c).WithinCapacity :=
  State.offer_capacity (State.withAlarm_capacity (a := { s.alarm with latch := l }) h h.journal) _

theorem State.raiseLatch_capacity (h : s.WithinCapacity) (c : AlarmClass) : (s.raiseLatch c).WithinCapacity := by
  unfold State.raiseLatch
  split <;> exact State.changeLatch_capacity h _ _

theorem State.acknowledge_capacity (h : s.WithinCapacity) : s.acknowledge.WithinCapacity := by
  unfold State.acknowledge
  split
  · exact h
  · have h1 := State.withAlarm_capacity (a := { s.alarm with journal := markJournal s.alarm.journal }) h
      (by simpa [markJournal] using h.journal)
    unfold State.acknowledgeSet
    split
    · exact State.changeLatch_capacity h1 _ _
    · split
      · exact h1
      · split <;> exact State.changeLatch_capacity h1 _ _

theorem State.returnToClear_capacity (h : s.WithinCapacity) : s.returnToClear.WithinCapacity := by
  unfold State.returnToClear
  split
  · exact State.changeLatch_capacity h _ _
  · exact h

/-- The settlement before the latch takes it. -/
theorem State.journalled_capacity (h : s.WithinCapacity) (es : List JournalEntry) :
    (s.withAlarm { s.alarm with journal := es.foldl (fun j e => appendJournal e j) s.alarm.journal }).WithinCapacity :=
  State.withAlarm_capacity h (appendAll_length _ h.journal)

theorem State.settle_capacity (h : s.WithinCapacity) (ties : Ties) (a : Adjudication) :
    (s.settle ties a).WithinCapacity := by
  have h1 := State.offerAll_capacity h a.settlements
  have h2 := State.withCarried_capacity h1
    (applySettlement_length ((s.offerAll a.settlements).settledGrace ties) a.settled h1.carried)
  unfold State.settle
  dsimp only
  split
  · exact State.raiseLatch_capacity (State.journalled_capacity h2 _) _
  · exact State.journalled_capacity h2 _

theorem State.enterWeighed_capacity (h : s.WithinCapacity) (ties : Ties) {w : Adjudication} (hw : w.candidates.length ≤ 24) :
    (s.enterWeighed ties w).WithinCapacity := by
  have hc : ∀ l : List Adjudication, (∀ a ∈ l, a ∈ s.adj.list) → ∀ a ∈ l ++ [w], a.candidates.length ≤ 24 := by
    intro l hl a ha
    rcases List.mem_append.1 ha with ha | ha
    · exact h.candidates a (hl a ha)
    · simp at ha
      exact ha ▸ hw
  unfold State.enterWeighed
  split
  · rename_i hl
    exact State.withList_capacity h (by simp [maxAdjudications] at hl ⊢; omega) (hc _ (fun _ ha => ha))
  · split
    · rename_i old ho
      have := removeAdj_length_lt (List.mem_of_find?_eq_some ho)
      have := h.adjudications
      exact State.settle_capacity (State.withList_capacity h (by simp; omega) (hc _ (fun _ ha => mem_removeAdj ha))) _ _
    · exact State.settle_capacity h _ _

theorem State.openAdjudication_capacity (h : s.WithinCapacity) (ties : Ties) (t : Trigger) (d : Direction) (a b : Stamp) :
    (s.openAdjudication ties t d a b).WithinCapacity := by
  unfold State.openAdjudication
  split
  · exact h
  · have h1 : (s.withAdj { s.adj with nextCall := s.adj.nextCall + 1 }).WithinCapacity :=
      ⟨h.records, h.queue, h.adjudications, h.candidates, h.claims, h.carried, h.journal⟩
    have hn : (s.newAdjudication t d a b).candidates.length ≤ 24 := by
      rw [State.newAdjudication, List.length_map]
      exact keepLargest_length _ 24 _
    dsimp only
    refine State.finishOffers_capacity ?_ _
    split
    · unfold State.weighNew
      dsimp only
      split
      · exact h1
      · exact State.enterWeighed_capacity (State.giveVerdict_capacity h1 _ _) _ (by simpa using hn)
    · rename_i hl
      have hl : s.adj.list.length < 4 := by
        simp [maxAdjudications] at hl
        exact Nat.lt_of_not_le (of_decide_eq_false hl.2)
      refine State.offer_capacity (State.withList_capacity h1 (by simp; omega) ?_) _
      intro x hx
      rcases List.mem_append.1 hx with hx | hx
      · exact h.candidates x hx
      · simp at hx
        exact hx ▸ hn

end Keep

end Sys2Proof.Machine
end

