-- ==== Sys2Proof/Laws/Alarm.lean ====
section
/-! SUPPORT. Every operation of the alarm unit keeps AlarmUnit.Sound (R159, R173, R174, Table 10-3). -/

namespace Sys2Proof.Machine

/-- An entry as the journal may hold it (Table 10-3). -/
def JournalEntry.Sound (e : JournalEntry) : Prop := (e.kind = .alarm ∨ e.kind = .repeated) ∧ e.cls ≠ .noAlarm ∧ e.age ≤ 65535

theorem AlarmUnit.Sound.withLatch {a : AlarmUnit} (h : a.Sound) {l : Latch}
    (hl : l.cls = .noAlarm → l.acknowledged = false ∧ l.clearPending = false) :
    ({ a with latch := l } : AlarmUnit).Sound := ⟨hl, h.entries, h.journal, h.cursor⟩

theorem State.changeLatch_sound {s : State} (h : s.alarm.Sound) {l : Latch} (c : LatchChange)
    (hl : l.cls = .noAlarm → l.acknowledged = false ∧ l.clearPending = false) : (s.changeLatch l c).alarm.Sound := by
  rw [State.changeLatch, (State.offer_frame _ _).blocks .alarm (by simp)]
  exact h.withLatch hl

theorem State.clearLatch_sound {s : State} (h : s.alarm.Sound) : s.clearLatch.alarm.Sound :=
  State.changeLatch_sound h _ (fun _ => ⟨rfl, rfl⟩)

theorem State.raiseLatch_sound {s : State} (h : s.alarm.Sound) (c : AlarmClass) : (s.raiseLatch c).alarm.Sound := by
  unfold State.raiseLatch
  split <;> exact State.changeLatch_sound h _ (fun _ => ⟨rfl, rfl⟩)

theorem State.returnToClear_sound {s : State} (h : s.alarm.Sound) : s.returnToClear.alarm.Sound := by
  unfold State.returnToClear
  split
  · exact State.clearLatch_sound h
  · exact h

theorem AlarmUnit.Sound.withJournal {a : AlarmUnit} (h : a.Sound) {j : List JournalEntry} (len : j.length ≤ 32)
    (each : ∀ e ∈ j, e.Sound) : ({ a with journal := j } : AlarmUnit).Sound := ⟨h.unset, each, len, h.cursor⟩

theorem markJournal_sound {a : AlarmUnit} (h : a.Sound) : ({ a with journal := markJournal a.journal } : AlarmUnit).Sound := by
  refine h.withJournal (by simpa [markJournal] using h.journal) ?_
  simp only [markJournal, List.mem_map]
  rintro _ ⟨e, he, rfl⟩
  exact h.entries e he

theorem ageJournal_sound {a : AlarmUnit} (h : a.Sound) : ({ a with journal := ageJournal a.journal } : AlarmUnit).Sound := by
  refine h.withJournal (by simpa [ageJournal] using h.journal) ?_
  simp only [ageJournal, List.mem_map]
  rintro _ ⟨e, he, rfl⟩
  exact ⟨(h.entries e he).1, (h.entries e he).2.1, Nat.min_le_left _ _⟩

theorem mem_appendJournal {e x : JournalEntry} {j : List JournalEntry} (h : x ∈ appendJournal e j) : x = e ∨ x ∈ j := by
  unfold appendJournal at h
  split at h
  · simp only [List.mem_append, List.mem_singleton] at h
    exact h.symm
  · simp only [List.mem_append, List.mem_singleton] at h
    exact h.symm.imp_right List.mem_of_mem_drop

theorem appendAll_sound : ∀ (es : List JournalEntry) {j : List JournalEntry}, (∀ e ∈ es, e.Sound) → (∀ e ∈ j, e.Sound) →
    ∀ e ∈ es.foldl (fun j e => appendJournal e j) j, e.Sound
  | [], _, _, hj => hj
  | x :: es, _, hes, hj => appendAll_sound es (fun e he => hes e (by simp [he])) (fun e he => by
      rcases mem_appendJournal he with rfl | he
      · exact hes _ (by simp)
      · exact hj e he)

theorem State.acknowledge_sound {s : State} (h : s.alarm.Sound) : s.acknowledge.alarm.Sound := by
  unfold State.acknowledge
  split
  · exact h
  · rename_i hc
    have hm := markJournal_sound h
    unfold State.acknowledgeSet
    split
    · exact State.clearLatch_sound hm
    · split
      · exact hm
      · split
        · exact State.clearLatch_sound hm
        · exact State.changeLatch_sound hm _ (fun k => absurd k hc)

theorem AlarmUnit.cursorAfter_le {a : AlarmUnit} (h : a.journal.length ≤ 32) (i : Nat) : a.cursorAfter i ≤ 31 := by
  unfold AlarmUnit.cursorAfter
  split
  · split <;> omega
  · omega

theorem State.answerJournal_sound {s : State} (h : s.alarm.Sound) (i : Byte) : (s.answerJournal i).alarm.Sound := by
  rw [State.answerJournal, (State.offer_frame _ _).blocks .alarm (by simp)]
  exact ⟨h.unset, h.entries, h.journal, AlarmUnit.cursorAfter_le h.journal _⟩

theorem State.settle_sound {s : State} (h : s.alarm.Sound) (ties : Ties) (a : Adjudication) : (s.settle ties a).alarm.Sound := by
  have ho : (s.offerAll a.settlements).alarm.Sound := by
    rw [(State.offerAll_frame s a.settlements).blocks .alarm (by simp)]
    exact h
  have hj : ∀ u : State, ({ (s.offerAll a.settlements).alarm with
      journal := ((a.standing.filter Candidate.alarms).map (u.journalEntry ties a)).foldl
        (fun j e => appendJournal e j) (s.offerAll a.settlements).alarm.journal } : AlarmUnit).Sound := by
    intro u
    refine ho.withJournal (appendAll_length _ ho.journal) (appendAll_sound _ ?_ ho.entries)
    simp only [List.mem_map, List.mem_filter]
    rintro _ ⟨c, ⟨-, hc⟩, rfl⟩
    refine ⟨?_, ?_, ?_⟩
    · simp only [State.journalEntry]
      simp only [Candidate.alarms, Bool.and_eq_true, Bool.or_eq_true, beq_iff_eq] at hc
      rcases hc.2 with k | k <;> simp [k]
    · simp only [State.journalEntry]
      split <;> simp
    · simp only [State.journalEntry]
      split <;> omega
  unfold State.settle
  dsimp only
  split
  · exact State.raiseLatch_sound (hj _) _
  · exact hj _

end Sys2Proof.Machine
end

