-- ==== Sys2Proof/Laws/Effects.lean ====
section
/-! SUPPORT. What the shared operations put, said once per operation: time, offers with room, the frame-start event, joining, and
hearing a station; and what a tag reads and answers. -/

namespace Sys2Proof.Machine

section Effects

variable (s : State)

/-! ### Time -/

/-- While the clock runs, time moves the cadence unit and nothing else. -/
theorem State.advance_eq {s : State} (h : s.clockRuns = true) (u : Nat) : s.advance u = s.withCadence (s.cadence.advance u) :=
  if_pos h

theorem State.toMoment_eq {s : State} (h : s.clockRuns = true) (m : Nat) :
    s.toMoment m = s.withCadence (s.cadence.advance (m - s.cadence.clock)) := State.advance_eq h _

theorem State.waitBits_eq {s : State} (h : s.clockRuns = true) (n : Nat) :
    s.waitBits n = s.withCadence (s.cadence.advance (n * 2048)) := State.advance_eq h _

/-- Whether or not the clock runs, time moves the clock and the offset of the cadence unit only. -/
theorem State.advance_cases (u : Nat) :
    ∃ c : Cadence, s.advance u = s.withCadence c ∧ s.cadence.sameButTime c := by
  unfold State.advance
  split
  · exact ⟨_, rfl, by simp [Cadence.advance, Cadence.sameButTime]⟩
  · exact ⟨s.cadence, rfl, rfl⟩

/-! ### Edges and slots -/

/-- With no edge waiting on the line there is none to take. -/
theorem State.readEdges_nil {s : State} (h : s.line.edges = []) (gap blind : Nat) : s.readEdges gap blind = s := by
  have : ({ s.line with edges := [] } : RowLine) = s.line := by rw [← h]
  simp [State.readEdges, State.takeEdges, h, this]

/-- A receiver that is OFF watches no edge (R101). -/
theorem State.readEdges_off {s : State} (h : s.line.rx = .off) (gap blind : Nat) : s.readEdges gap blind = s := if_pos h

/-- An edge that is seen is taken, and then the others. -/
theorem State.takeEdges_seen {s : State} {gap blind : Nat} {e : Edge} (h : s.seesEdge gap blind e = true) (es : List Edge) :
    s.takeEdges gap blind (e :: es) = (s.takeEdge e).takeEdges gap blind es := if_pos h

/-- An edge that is not seen goes on waiting, with those after it. -/
theorem State.takeEdges_unseen {s : State} {gap blind : Nat} {e : Edge} (h : s.seesEdge gap blind e = false) (es : List Edge) :
    s.takeEdges gap blind (e :: es) = s.withLine { s.line with edges := e :: es } := by simp [State.takeEdges, h]

/-- While it sends the part counts no idle (R96). -/
theorem State.idleCount_sending {s : State} (h : s.transmitter = .sending) : s.idleCount = 0 := by simp [State.idleCount, h]

/-- A transmitter that neither sends nor waits before its lead character is told by the line itself. -/
theorem State.transmitter_quiet {s : State} (h : s.line.sends = false) : s.transmitter = s.line.tx := by
  simp [State.transmitter, h]

/-- The line returning high lets the idle count run from that moment (R96). -/
theorem RowLine.takeEdge_high {l : RowLine} {m : Nat} (h : l.idleFrom ≤ m) :
    l.takeEdge ⟨m, true⟩ = { l with lowFrom := none, idleFrom := m } := by
  simp [RowLine.takeEdge, Nat.max_eq_right h]

/-- The operands of SLOT_END are what the faces heard tick by tick. -/
@[simp] theorem faceTicks_map (ticks : List FaceTick) :
    faceTicks (ticks.map FaceTick.envelope) (ticks.map FaceTick.bits) = ticks := by
  induction ticks with
  | nil => rfl
  | cons x xs ih => simp_all [faceTicks]

/-! ### Offers -/

/-- An offer that finds room stands at the end of the queue (R109). -/
theorem State.offer_room {s : State} (h : s.HasRoom 1) (n : Notice) :
    s.offer n = s.withLine { s.line with queue := s.line.queue ++ [Queued.fresh n] } := by
  have hl : s.line.queue.length < maxQueue := by
    have := h.fits
    simp only [maxQueue]
    omega
  simp [State.offer, h.awake, RowLine.offer, offerTo, hl]

/-- Offers that find room stand at the end of the queue in their order (R109). -/
theorem State.offerAll_room : ∀ {s : State} (ns : List Notice), s.HasRoom ns.length →
    s.offerAll ns = s.withLine { s.line with queue := s.line.queue ++ ns.map Queued.fresh }
  | s, [], _ => by
    simp [State.offerAll]
    rfl
  | s, n :: ns, h => by
    have h1 : s.HasRoom 1 := ⟨h.awake, by have := h.fits; simp at this; omega, h.quiet⟩
    have h2 : (s.offer n).HasRoom ns.length := by
      rw [State.offer_room h1]
      exact ⟨h.awake, by have := h.fits; simp at this ⊢; omega, h.quiet⟩
    have := State.offerAll_room ns h2
    unfold State.offerAll at this ⊢
    rw [List.foldl_cons, this, State.offer_room h1]
    simp

/-- A return-to-CLEAR report that finds room (R166). -/
theorem State.returnToClear_room {s : State} (h : s.HasRoom 1) : s.returnToClear = s.latchCleared := by
  unfold State.returnToClear State.latchCleared
  split
  · exact State.offer_room (s := s.withAlarm { s.alarm with latch := .reset }) ⟨h.awake, h.fits, h.quiet⟩ _
  · rfl

/-! ### The frame-start event -/

section FrameStart

variable (st : Stamp) (off at0 : Nat) (adopted : Bool) (view : StatusView)

@[simp] theorem State.frameStartEvent_cadence :
    (s.frameStartEvent st off at0 adopted view).cadence = s.cadence.beginFrame st off at0 adopted := by
  unfold State.frameStartEvent
  rw [(State.offerStatus_frame _ _ _).blocks .cadence (by simp)]
  by_cases h : st.index = 0 <;> simp [h]

@[simp] theorem State.frameStartEvent_field :
    (s.frameStartEvent st off at0 adopted view).field = s.field.beginFrame off := by
  unfold State.frameStartEvent
  rw [(State.offerStatus_frame _ _ _).blocks .field (by simp)]
  by_cases h : st.index = 0 <;> simp [h]

@[simp] theorem State.frameStartEvent_sightings :
    (s.frameStartEvent st off at0 adopted view).sightings = limitFirstStamps st s.sightings := by
  unfold State.frameStartEvent
  rw [(State.offerStatus_frame _ _ _).blocks .sightings (by simp)]
  by_cases h : st.index = 0 <;> simp [h]

@[simp] theorem State.frameStartEvent_lane :
    (s.frameStartEvent st off at0 adopted view).lane = s.lane.frameStart st := by
  unfold State.frameStartEvent
  rw [(State.offerStatus_frame _ _ _).blocks .lane (by simp)]
  by_cases h : st.index = 0 <;> simp [h]

@[simp] theorem State.frameStartEvent_neighbours :
    (s.frameStartEvent st off at0 adopted view).neighbours = if st.index = 0 then s.countSilence else s.neighbours := by
  unfold State.frameStartEvent
  rw [(State.offerStatus_frame _ _ _).blocks .neighbours (by simp)]
  by_cases h : st.index = 0
  · simp [h]
    rfl
  · simp [h]

@[simp] theorem State.frameStartEvent_adj :
    (s.frameStartEvent st off at0 adopted view).adj =
      { s.adj with list := s.adj.list.map Adjudication.countDown, claims := countClaims s.adj.claims } := by
  unfold State.frameStartEvent
  rw [(State.offerStatus_frame _ _ _).blocks .adj (by simp)]
  by_cases h : st.index = 0 <;> simp [h]

@[simp] theorem State.frameStartEvent_carried :
    (s.frameStartEvent st off at0 adopted view).carried = countGraces s.carried := by
  unfold State.frameStartEvent
  rw [(State.offerStatus_frame _ _ _).blocks .carried (by simp)]
  by_cases h : st.index = 0 <;> simp [h]

@[simp] theorem State.frameStartEvent_alarm :
    (s.frameStartEvent st off at0 adopted view).alarm = { s.alarm with journal := ageJournal s.alarm.journal } := by
  unfold State.frameStartEvent
  rw [(State.offerStatus_frame _ _ _).blocks .alarm (by simp)]
  by_cases h : st.index = 0 <;> simp [h]

@[simp] theorem State.frameStartEvent_startup : (s.frameStartEvent st off at0 adopted view).startup = s.startup :=
  (s.frameStartEvent_frame st off at0 adopted view).blocks .startup (by simp)

@[simp] theorem State.frameStartEvent_sampler : (s.frameStartEvent st off at0 adopted view).sampler = s.sampler :=
  (s.frameStartEvent_frame st off at0 adopted view).blocks .sampler (by simp)

@[simp] theorem State.frameStartEvent_pending : (s.frameStartEvent st off at0 adopted view).pending = s.pending :=
  (s.frameStartEvent_frame st off at0 adopted view).pending

end FrameStart

/-! ### Joining -/

section Join

variable (n : BitVec 16) (off : Nat) (adopted : Bool)

@[simp] theorem State.joinAt_cadence :
    (s.joinAt n off adopted).cadence = ({ s.cadence with join := .joined } : Cadence).beginFrame ⟨n, 0⟩ off off adopted := by
  simp only [State.joinAt]
  split <;> simp [State.raiseRequest]

@[simp] theorem State.joinAt_startup : (s.joinAt n off adopted).startup = { s.startup with state := .joined } := by
  simp only [State.joinAt]
  split <;> simp [State.raiseRequest]

@[simp] theorem State.joinAt_lane :
    (s.joinAt n off adopted).lane = (s.lane.restamp ⟨n, 0⟩).frameStart ⟨n, 0⟩ := by
  simp only [State.joinAt]
  split <;> simp [State.raiseRequest]

@[simp] theorem State.joinAt_field :
    (s.joinAt n off adopted).field = { s.field.beginFrame off with
      request := if s.startup.keyStarted = true ∧ s.startup.key = .service then none else some .run } := by
  simp only [State.joinAt]
  by_cases h : s.startup.keyStarted = true ∧ s.startup.key = .service
  · simp [h, FieldDriver.beginFrame]
  · simp only [if_neg h]
    split
    · rename_i k
      simp at k
      exact absurd k h
    · simp [State.raiseRequest]

end Join

/-! ### Hearing -/

/-- A notice from another position than the part's own is no clash trigger (R105). -/
theorem State.hearSender_other {s : State} {p : Nat} (h : p ≠ s.position) : s.hearSender p = s.hearStation p := by
  have : (s.hearStation p).position = s.position := rfl
  simp [State.hearSender, this, h]

/-- A notice under the part's own position is a clash trigger (R105, R121). -/
theorem State.hearSender_own {s : State} : s.hearSender s.position = (s.hearStation s.position).clashTrigger := by
  have : (s.hearStation s.position).position = s.position := rfl
  simp [State.hearSender, this]

/-- The abandonment of every adjudication with the withdrawal of the EVIDENCE, as one change of the queue (R132, R149). -/
theorem State.abandonAll_withdrawEvidence_line (s : State) :
    s.abandonAll.withdrawEvidence.line = { s.line with queue := s.queueWithdrawn } := by
  have : withdrawFrom isEvidence (withdrawFrom (ofCalls (s.adj.list.map Adjudication.callId)) s.line.queue) = s.queueWithdrawn := by
    simp only [withdrawFrom, State.queueWithdrawn, List.filterMap_filterMap]
    congr 1
    funext q
    cases h : q.notice <;> cases hq : q.inTransmission <;> simp [ofCalls, isEvidence, State.withdraws, h, hq] <;>
      (try split <;> simp_all)
  simpa [State.abandonAll, State.withdrawEvidence, State.withdraw, State.withList] using this

/-- A drop report for the CALL of a COLLECTING adjudication weighs it with partner evidence NONE (R130). -/
theorem State.dropReport_call {s : State} {id : Byte} {a : Adjudication}
    (h : s.adj.list.find? (fun a => a.callId == id && a.state == .collecting) = some a) (ties : Ties) (lane : Byte) (first last : Stamp) :
    s.dropReport ties (.call id lane first last) = s.weighListed ties { a with evidence := .nothing } := by
  simp [State.dropReport, h]

/-! ### The tag -/

/-- Carrier at once after the rest of a tag starts its cell 0 there (R34). -/
theorem Tag.keyRead_now {carrier : Nat → Bool} (h : carrier 0 = true) {silent : Nat} (hs : 32 ≤ silent) (ticks : Nat) :
    Tag.keyRead carrier (ticks + 1) silent = some (Tag.readKey carrier) := by
  simp [Tag.keyRead, Tag.cellZeroFrom, Tag.restGap, h, hs]

/-- A cell 0 starts at a tick of carrier within the ticks heard (R34). -/
theorem Tag.cellZeroFrom_some {carrier : Nat → Bool} : ∀ {ticks t silent start : Nat},
    Tag.cellZeroFrom carrier ticks t silent = some start → carrier start = true ∧ t ≤ start ∧ start < t + ticks
  | ticks + 1, t, silent, start, h => by
    unfold Tag.cellZeroFrom at h
    split at h
    · split at h
      · cases h
        exact ⟨‹_›, by omega, by omega⟩
      · obtain ⟨hc, h1, h2⟩ := Tag.cellZeroFrom_some h
        exact ⟨hc, by omega, by omega⟩
    · obtain ⟨hc, h1, h2⟩ := Tag.cellZeroFrom_some h
      exact ⟨hc, by omega, by omega⟩

/-- A reply carries the key that was read, in the slot of that key (R34 to R36). -/
theorem Tag.reply_some {serial : Serial} {unissued : Bool} {carrier : Nat → Bool} {ticks silent : Nat} {answer : Nat × BitVec 48}
    (h : Tag.reply serial unissued carrier ticks silent = some answer) :
    ∃ read, Tag.keyRead carrier ticks silent = some read ∧ answer = (Tag.slot serial read, Tag.word serial unissued read) := by
  unfold Tag.reply at h
  obtain ⟨start, hs, h⟩ := Option.bind_eq_some_iff.mp h
  dsimp only at h
  split at h
  · cases h
    exact ⟨_, by simp [Tag.keyRead, hs], rfl⟩
  · cases h

end Effects

end Sys2Proof.Machine
end

