-- ==== Sys2Proof/Laws/Lane.lean ====
section
/-! SUPPORT. Every operation of the lane monitor keeps LaneMonitor.Sound. -/

namespace Sys2Proof.Machine

/-- What a filtered change says of the beam before and after (R71). -/
theorem Beam.sample_spec (b : Beam) (raw : Bool) :
    ((b.sample raw).2 = .same ∧ (b.sample raw).1.broken = b.broken ∧ (b.sample raw).1.stuck = b.stuck ∧
        (b.sample raw).1.duration = b.duration) ∨
      ((b.sample raw).2 = .broken ∧ b.broken = false ∧ (b.sample raw).1 = ⟨true, false, 0, b.stuck⟩) ∨
      ((b.sample raw).2 = .cleared ∧ b.broken = true ∧ (b.sample raw).1 = ⟨false, false, 0, false⟩) := by
  obtain ⟨br, df, du, st⟩ := b
  cases raw <;> cases br <;> cases df <;> simp [Beam.sample]

theorem Beam.sample_range (b : Beam) (raw : Bool) (h : b.duration ≤ 1500) : (b.sample raw).1.duration ≤ 1500 := by
  rcases b.sample_spec raw with ⟨-, -, -, k⟩ | ⟨-, -, k⟩ | ⟨-, -, k⟩ <;> simp [k, h]

theorem Beam.sample_stuck (b : Beam) (raw : Bool) (h : b.stuck = true → b.broken = true) :
    (b.sample raw).1.stuck = true → (b.sample raw).1.broken = true := by
  rcases b.sample_spec raw with ⟨-, k1, k2, -⟩ | ⟨-, -, k⟩ | ⟨-, -, k⟩
  · rw [k1, k2]
    exact h
  · simp [k]
  · simp [k]

/-- The lane at a tick with both beams' states seen: WAIT_CLEAR, or CLEAR with both beams CLEAR (R78). -/
theorem LaneMonitor.waitClear_sound (l : LaneMonitor) (run : l.clearRun = 0) (si : l.inner.stuck = false)
    (so : l.outer.stuck = false) (ri : l.inner.duration ≤ 1500) (ro : l.outer.duration ≤ 1500) : l.waitClear.1.Sound := by
  unfold LaneMonitor.waitClear
  split
  · constructor <;> simp_all [Passage.beams, Passage.inProgress]
  · constructor <;> simp_all [Passage.beams, Passage.inProgress, LaneMonitor.toClear]

theorem LaneMonitor.resume_sound {l : LaneMonitor} (_ : l.Sound) : l.resume.Sound := by
  constructor <;> simp [LaneMonitor.resume, Passage.beams, Passage.inProgress]

theorem LaneMonitor.restamp_sound {l : LaneMonitor} (h : l.Sound) (now : Stamp) : (l.restamp now).Sound := by
  unfold LaneMonitor.restamp
  split
  · rename_i hp
    exact ⟨h.beams, by simp [hp], h.run, h.unstarted, h.runRange, h.tagOnly, h.innerStuck, h.outerStuck, h.innerRange, h.outerRange⟩
  · exact h

theorem Beam.countFrame_spec (b : Beam) : b.countFrame.broken = b.broken ∧ b.countFrame.stuck = b.stuck ∧
    (b.duration ≤ 1500 → b.countFrame.duration ≤ 1500) := by
  unfold Beam.countFrame
  split
  · exact ⟨rfl, rfl, fun _ => Nat.min_le_left _ _⟩
  · exact ⟨rfl, rfl, fun h => h⟩

theorem LaneMonitor.frameStart_sound {l : LaneMonitor} (h : l.Sound) (now : Stamp) : (l.frameStart now).Sound := by
  obtain ⟨i1, i2, i3⟩ := l.inner.countFrame_spec
  obtain ⟨o1, o2, o3⟩ := l.outer.countFrame_spec
  unfold LaneMonitor.frameStart
  split
  · rename_i hst
    refine ⟨?_, ?_, ?_, by simp [hst], ?_, ?_, ?_, ?_, i3 h.innerRange, o3 h.outerRange⟩
    · rw [i1, o1]
      exact h.beams
    · dsimp only
      split
      · simpa using h.start
      · exact h.start
    · intro hp
      simp only [if_neg hp]
      exact h.run hp
    · dsimp only
      split
      · exact Nat.min_le_left _ _
      · exact h.runRange
    · rw [i2, o2]
      exact h.tagOnly
    · rw [i1, i2]
      exact h.innerStuck
    · rw [o1, o2]
      exact h.outerStuck
  · exact h

theorem LaneMonitor.raiseStuck_sound {l : LaneMonitor} (h : l.Sound) : l.raiseStuck.Sound := by
  have hs : ∀ b : Beam, (b.stuck = true → b.broken = true) → b.duration ≤ 1500 →
      (b.raiseStuck.stuck = true → b.raiseStuck.broken = true) ∧ b.raiseStuck.duration ≤ 1500 ∧
        b.raiseStuck.broken = b.broken ∧ (b.stuck = true → b.raiseStuck.stuck = true) := by
    intro b h1 h2
    unfold Beam.raiseStuck
    split
    · rename_i hb
      exact ⟨fun _ => hb.2, h2, rfl, fun _ => rfl⟩
    · exact ⟨h1, h2, rfl, fun h => h⟩
  obtain ⟨i1, i2, i3, i4⟩ := hs _ h.innerStuck h.innerRange
  obtain ⟨o1, o2, o3, o4⟩ := hs _ h.outerStuck h.outerRange
  unfold LaneMonitor.raiseStuck
  dsimp only
  split
  · rename_i hst
    exact ⟨by simp [Passage.beams], by simp [Passage.inProgress], by simp, by simp, by simp, by simpa using hst, i1, o1, i2, o2⟩
  · rename_i hst
    have hst : l.inner.raiseStuck.stuck = false ∧ l.outer.raiseStuck.stuck = false := by simpa using hst
    refine ⟨?_, h.start, h.run, h.unstarted, h.runRange, ?_, i1, o1, i2, o2⟩
    · rw [i3, o3]
      exact h.beams
    · constructor
      · intro hp
        rcases h.tagOnly.1 hp with k | k
        · exact .inl (i4 k)
        · exact .inr (o4 k)
      · rintro (k | k) <;> simp_all

/-- The state machine keeps the lane sound, when the filters have just taken their samples (R73 to R79, R88). -/
theorem LaneMonitor.react_sound {l : LaneMonitor} (h : l.Sound) (now : Stamp) (inner outer : Bool) :
    (LaneMonitor.react { l with inner := (l.inner.sample inner).1, outer := (l.outer.sample outer).1 } now
      (l.inner.sample inner).2 (l.outer.sample outer).2).1.Sound := by
  have ri := l.inner.sample_range inner h.innerRange
  have ro := l.outer.sample_range outer h.outerRange
  have si := l.inner.sample_stuck inner h.innerStuck
  have so := l.outer.sample_stuck outer h.outerStuck
  have ci := l.inner.sample_spec inner
  have co := l.outer.sample_spec outer
  obtain ⟨hb, hstart, hrun, hun, hrange, htag, hin, hout, -, -⟩ := h
  revert ri ro si so ci co
  generalize l.inner.sample inner = bi
  generalize l.outer.sample outer = bo
  obtain ⟨bi, chi⟩ := bi
  obtain ⟨bo, cho⟩ := bo
  intro ri ro si so ci co
  dsimp only at *
  obtain ⟨st, li, lo, p, ss, cr⟩ := l
  dsimp only at *
  by_cases hw : p = .waitClear
  · subst hw
    refine LaneMonitor.waitClear_sound _ (hrun (by simp)) ?_ ?_ ri ro
    · have : li.stuck = false := by simpa using fun h => htag.2 (.inl h)
      rcases ci with ⟨-, -, k, -⟩ | ⟨-, -, k⟩ | ⟨-, -, k⟩ <;> simp [k, this]
    · have : lo.stuck = false := by simpa using fun h => htag.2 (.inr h)
      rcases co with ⟨-, -, k, -⟩ | ⟨-, -, k⟩ | ⟨-, -, k⟩ <;> simp [k, this]
  by_cases ht : p = .tagOnly
  · subst ht
    simp only [LaneMonitor.react]
    split
    · rename_i hs
      exact ⟨by simp [Passage.beams], hstart, hrun, hun, hrange, by simpa using hs, si, so, ri, ro⟩
    · rename_i hs
      have hs : bi.stuck = false ∧ bo.stuck = false := by simpa using hs
      exact LaneMonitor.waitClear_sound _ (hrun (by simp)) hs.1 hs.2 ri ro
  have hsi : li.stuck = false := by
    cases hx : li.stuck
    · rfl
    · exact absurd (htag.2 (.inl hx)) ht
  have hso : lo.stuck = false := by
    cases hx : lo.stuck
    · rfl
    · exact absurd (htag.2 (.inr hx)) ht
  have hbi : bi.stuck = false := by
    rcases ci with ⟨-, -, k, -⟩ | ⟨-, -, k⟩ | ⟨-, -, k⟩ <;> simp [k, hsi]
  have hbo : bo.stuck = false := by
    rcases co with ⟨-, -, k, -⟩ | ⟨-, -, k⟩ | ⟨-, -, k⟩ <;> simp [k, hso]
  have hci : (chi = .same ∧ bi.broken = li.broken) ∨ (chi = .broken ∧ li.broken = false ∧ bi.broken = true) ∨
      (chi = .cleared ∧ li.broken = true ∧ bi.broken = false) := by
    rcases ci with ⟨a, b, -, -⟩ | ⟨a, b, k⟩ | ⟨a, b, k⟩ <;> simp_all
  have hco : (cho = .same ∧ bo.broken = lo.broken) ∨ (cho = .broken ∧ lo.broken = false ∧ bo.broken = true) ∨
      (cho = .cleared ∧ lo.broken = true ∧ bo.broken = false) := by
    rcases co with ⟨a, b, -, -⟩ | ⟨a, b, k⟩ | ⟨a, b, k⟩ <;> simp_all
  clear ci co
  cases p <;> simp [Passage.beams, Passage.inProgress] at hb hstart hrun hw ht <;>
    rcases hci with ⟨rfl, hci⟩ | ⟨rfl, hci, hci'⟩ | ⟨rfl, hci, hci'⟩ <;>
    rcases hco with ⟨rfl, hco⟩ | ⟨rfl, hco, hco'⟩ | ⟨rfl, hco, hco'⟩ <;>
    simp_all [LaneMonitor.react, Passage.move, LaneMonitor.toClear] <;>
    constructor <;> simp_all [Passage.beams, Passage.inProgress]

theorem LaneMonitor.tick_sound {l : LaneMonitor} (h : l.Sound) (e : Bool) (now : Stamp) (inner outer : Bool) :
    (l.tick e now inner outer).1.Sound := by
  unfold LaneMonitor.tick
  split
  · split
    · exact h
    · constructor <;> simp [LaneMonitor.toClear, Passage.beams, Passage.inProgress, Beam.reset, h.runRange]
  · split
    · exact LaneMonitor.react_sound h now inner outer
    · rename_i hs
      exact LaneMonitor.waitClear_sound _ (h.unstarted (by simpa using hs)) rfl rfl (by simp [Beam.first])
        (by simp [Beam.first])

end Sys2Proof.Machine
end

