-- ==== Sys2Proof/Laws/Table.lean ====
section
/-! SUPPORT. Every operation of the sighting table keeps TableSound: records in range, in order of serial with no two of one
serial, at most 16 of them STRAY (R46, R55, R63). -/

namespace Sys2Proof.Machine

/-- A reply whose amplitudes are in range (R25). -/
def Reply.InRange (r : Reply) : Prop := r.west ≤ 1023 ∧ r.east ≤ 1023

theorem Record.count_sound {rec : Record} {r : Reply} : (rec.count r).Sound := by
  constructor <;> simp [Record.count, saturate, maxSum, maxReads, Record.isStray]

theorem Reply.record_sound {r : Reply} (hr : r.InRange) (w : Bool) : ({ r.record with watched := w } : Record).Sound := by
  obtain ⟨h1, h2⟩ := hr
  constructor <;> simp [Reply.record, Record.isStray] <;> omega

theorem Record.apply_serial {rec : Record} {r : Reply} (m : Nat) (h : rec.serial = r.serial) :
    (rec.apply m r).serial = rec.serial := by
  unfold Record.apply
  split
  · rfl
  · split
    · unfold Record.meetStray
      split
      · exact h.symm
      · rfl
    · rfl

theorem Record.apply_sound {rec : Record} {r : Reply} (m : Nat) (h : rec.Sound) (hr : r.InRange) : (rec.apply m r).Sound := by
  unfold Record.apply
  split
  · exact h
  · split
    · unfold Record.meetStray
      split
      · exact Reply.record_sound hr _
      · exact ⟨h.west, h.east, h.reads, h.unread, h.stray⟩
    · exact Record.count_sound

/-- A reply makes no record STRAY (R51 to R54). -/
theorem Record.apply_stray {rec : Record} {r : Reply} (m : Nat) (h : (rec.apply m r).isStray = true) :
    rec.isStray = true := by
  unfold Record.apply at h
  split at h
  · exact h
  · split at h
    · rename_i k
      simp [Record.isStray, k]
    · simp [Record.count, Record.isStray] at h

/-! ### Maps and filters -/

/-- A map that keeps the serials and the records' ranges, and makes nothing STRAY, keeps the table. -/
theorem TableSound.map {t : List Record} (h : TableSound t) {f : Record → Record} (serial : ∀ r, (f r).serial = r.serial)
    (sound : ∀ r, r.Sound → (f r).Sound) (stray : ∀ r, (f r).isStray = true → r.isStray = true) : TableSound (t.map f) := by
  refine ⟨?_, ?_, ?_⟩
  · simp only [List.mem_map]
    rintro _ ⟨r, hr, rfl⟩
    exact sound r (h.records r hr)
  · rw [List.pairwise_map]
    simpa only [serial] using h.order
  · refine Nat.le_trans ?_ h.strays
    simp only [strayCount, List.filter_map, List.length_map]
    refine (List.Sublist.length_le ?_)
    exact List.monotone_filter_right _ (fun r hr => stray r hr)

theorem TableSound.filter {t : List Record} (h : TableSound t) (p : Record → Bool) : TableSound (t.filter p) := by
  refine ⟨fun r hr => h.records r (List.mem_filter.1 hr).1, h.order.filter p, Nat.le_trans ?_ h.strays⟩
  exact (List.filter_sublist.filter _).length_le

theorem TableSound.nil : TableSound [] := ⟨by simp, List.Pairwise.nil, by simp [strayCount]⟩

/-! ### Replies -/

theorem insertRecord_order {rec : Record} : ∀ {t : List Record},
    t.Pairwise (fun a b => a.serial.toNat < b.serial.toNat) → (∀ r ∈ t, r.serial ≠ rec.serial) →
      (insertRecord rec t).Pairwise (fun a b => a.serial.toNat < b.serial.toNat)
  | [], _, _ => by simp [insertRecord, insertBy]
  | y :: ys, h, hne => by
    rw [List.pairwise_cons] at h
    have ih := insertRecord_order h.2 (fun r hr => hne r (by simp [hr]))
    unfold insertRecord at ih ⊢
    unfold insertBy
    split
    · rename_i hlt
      simp only [decide_eq_true_eq] at hlt
      refine List.pairwise_cons.2 ⟨?_, List.pairwise_cons.2 h⟩
      intro b hb
      rcases List.mem_cons.1 hb with rfl | hb
      · exact hlt
      · exact Nat.lt_trans hlt (h.1 b hb)
    · rename_i hlt
      simp only [decide_eq_true_eq, Nat.not_lt] at hlt
      have hy := hne y (by simp)
      refine List.pairwise_cons.2 ⟨?_, ih⟩
      intro b hb
      rcases (mem_insertBy _ _ _ _).1 hb with rfl | hb
      · exact Nat.lt_of_le_of_ne hlt (fun e => hy (BitVec.eq_of_toNat_eq e))
      · exact h.1 b hb

theorem insertRecord_strays (rec : Record) (hs : rec.isStray = false) : ∀ t : List Record,
    strayCount (insertRecord rec t) = strayCount t
  | [] => by simp [insertRecord, insertBy, strayCount, hs]
  | y :: ys => by
    have ih := insertRecord_strays rec hs ys
    unfold insertRecord strayCount at ih ⊢
    unfold insertBy
    split
    · simp [List.filter_cons, hs]
    · simp only [List.filter_cons]
      split <;> simp [ih]

theorem TableSound.insert {t : List Record} (h : TableSound t) {rec : Record} (sound : rec.Sound)
    (stray : rec.isStray = false) (fresh : ∀ r ∈ t, r.serial ≠ rec.serial) : TableSound (insertRecord rec t) := by
  refine ⟨?_, insertRecord_order h.order fresh, ?_⟩
  · intro r hr
    rcases (mem_insertBy _ _ _ _).1 hr with rfl | hr
    · exact sound
    · exact h.records r hr
  · rw [insertRecord_strays rec stray]
    exact h.strays

theorem applyReply_sound {t : List Record} (h : TableSound t) (m : Nat) {r : Reply} (hr : r.InRange) :
    TableSound (applyReply m r t) := by
  unfold applyReply
  split
  · refine h.map (fun rec => ?_) (fun rec hs => ?_) (fun rec hs => ?_)
    · split
      · rename_i he
        exact Record.apply_serial m he
      · rfl
    · split
      · exact Record.apply_sound m hs hr
      · exact hs
    · split at hs
      · exact Record.apply_stray m hs
      · exact hs
  · rename_i hany
    have hfresh : ∀ x ∈ t, x.serial ≠ r.record.serial := by
      intro x hx he
      exact hany (List.any_eq_true.2 ⟨x, hx, by simpa [Reply.record] using he⟩)
    split
    · exact h.insert (Reply.record_sound hr _) rfl hfresh
    · split
      · exact (h.filter _).insert (Reply.record_sound hr _) rfl (fun x hx => hfresh x (List.mem_filter.1 hx).1)
      · exact h

/-! ### Frame starts and VERDICT resets -/

/-- A record with another first stamp. -/
theorem Record.restamp_sound {r : Record} (k : r.Sound) (st : Stamp) : ({ r with firstStamp := st } : Record).Sound :=
  ⟨k.west, k.east, k.reads, k.unread, k.stray⟩

theorem restampWhere_sound {t : List Record} (h : TableSound t) (p : Record → Prop) [DecidablePred p] (st : Stamp) :
    TableSound (t.map (fun r => if p r then { r with firstStamp := st } else r)) := by
  refine h.map (fun r => ?_) (fun r k => ?_) (fun r k => ?_)
  · split
    · rfl
    · rfl
  · split
    · exact Record.restamp_sound k st
    · exact k
  · split at k
    · exact k
    · exact k

theorem limitFirstStamps_sound {t : List Record} (h : TableSound t) (now : Stamp) : TableSound (limitFirstStamps now t) :=
  restampWhere_sound h (fun r => 65535 < ageOf now r.firstStamp) (now.before 65535)

theorem fadeRecords_sound {t : List Record} (h : TableSound t) (now : Stamp) : TableSound (fadeRecords now t) :=
  h.map (fun r => by split <;> rfl)
    (fun r k => by
      split
      · exact ⟨k.west, k.east, k.reads, k.unread, by simp [Record.isStray]⟩
      · exact k)
    (fun r k => by
      split at k
      · simp [Record.isStray] at k
      · exact k)

theorem freeRecords_sound {t : List Record} (h : TableSound t) (now : Stamp) : TableSound (freeRecords now t) := h.filter _

theorem resetRecords_sound {t : List Record} (h : TableSound t) (first : Stamp) (serials : List Serial) :
    TableSound (resetRecords first serials t) :=
  h.map (fun r => by split <;> rfl)
    (fun r k => by
      split
      · constructor <;> simp
      · exact k)
    (fun r k => by split at k <;> exact k)

/-! ### Strays -/

theorem Record.mark_sound (r : Record) : r.mark.Sound := by constructor <;> simp [Record.mark]

/-- Marking one serial makes at most one more STRAY record, as no two records have one serial. -/
theorem strayCount_mark (serial : Serial) : ∀ {t : List Record}, t.Pairwise (fun a b => a.serial.toNat < b.serial.toNat) →
    strayCount (t.map (fun r => if r.serial = serial then r.mark else r)) ≤ strayCount t + 1
  | [], _ => by simp [strayCount]
  | r :: t, h => by
    rw [List.pairwise_cons] at h
    have ih := strayCount_mark serial h.2
    unfold strayCount at ih ⊢
    by_cases hs : r.serial = serial
    · have hrest : t.map (fun r => if r.serial = serial then r.mark else r) = t := by
        conv_rhs => rw [← List.map_id t]
        refine List.map_congr_left (fun x hx => if_neg ?_)
        rintro rfl
        have := h.1 x hx
        rw [hs] at this
        omega
      have hm : r.mark.isStray = true := rfl
      rw [List.map_cons, hrest, if_pos hs, List.filter_cons, if_pos hm, List.filter_cons]
      split
      · simp
      · simp
    · by_cases hm : r.isStray = true
      · simp only [List.map_cons, if_neg hs, List.filter_cons, if_pos hm, List.length_cons]
        omega
      · simp only [List.map_cons, if_neg hs, List.filter_cons, if_neg hm]
        exact ih

theorem markOne_sound {t : List Record} (h : TableSound t) (now : Stamp) (serial : Serial) :
    TableSound (markOne now serial t) := by
  have finish : ∀ u : List Record, TableSound u → strayCount u < 16 →
      TableSound (u.map (fun r => if r.serial = serial then r.mark else r)) := by
    intro u hu hlt
    refine ⟨?_, ?_, ?_⟩
    · simp only [List.mem_map]
      rintro _ ⟨r, hr, rfl⟩
      split
      · exact r.mark_sound
      · exact hu.records r hr
    · rw [List.pairwise_map]
      refine hu.order.imp ?_
      intro a b hab
      split <;> split <;> simpa [Record.mark] using hab
    · exact Nat.le_trans (strayCount_mark serial hu.order) hlt
  unfold markOne
  dsimp only
  split
  · exact finish t h (by simpa [maxStrays] using ‹_›)
  · rename_i hfull
    have hfull : strayCount t = 16 := by
      have := h.strays
      simp [maxStrays] at hfull
      omega
    split
    · rename_i out hout
      refine finish _ (h.filter _) ?_
      have hmem := pickBest_mem _ hout
      have hlt := filter_length_lt_of_mem (p := fun r => decide (r.serial ≠ out.serial)) hmem (by simp)
      rw [List.filter_filter] at hlt
      rw [← hfull]
      simp only [strayCount, freeSerial, List.filter_filter]
      simpa [Bool.and_comm] using hlt
    · rename_i hnone
      have := pickBest_none _ hnone
      simp [strayCount, this] at hfull

theorem markStrays_sound {t : List Record} (h : TableSound t) (age : Nat) (now : Stamp) : TableSound (markStrays age now t) := by
  unfold markStrays
  generalize sortBy _ _ = due
  induction due generalizing t with
  | nil => exact h
  | cons r due ih => exact ih (markOne_sound h now r.serial)

end Sys2Proof.Machine
end

