-- ==== Sys2Proof/Tests/Slice0.lean ====
section
/-! SUPPORT. Own tests: each command's refusal by WellFormed, each command on a small state with the outcome that a worked
sequence or a rule of spec/ gives, and for each statement of Obligations.lean with hypotheses a state that meets them all. -/

namespace Sys2Proof.Tests

set_option Elab.async false

open Sys2Proof.Machine

/-! ### Well-formedness -/

/-- What a face hears in a slot: a demodulated stream from slot tick 2 on, 8 bits to a tick, and an envelope that is strongest in tick
7; what it hears outside ticks 2 to 15 is stronger still and counts for nothing (R25). -/
def slotOf (envelope : Nat) (stream : List Bool) : List FaceTick :=
  (List.range 18).map (fun t =>
    ⟨if t < 2 ∨ 15 < t then 1000 else if t = 7 then envelope else envelope / 2,
      if t < 2 ∨ 15 < t then List.replicate 8 true
      else ((stream ++ List.replicate 112 false).drop (8 * (t - 2))).take 8⟩)

theorem test_wf_slot :
    (Instr.slotHeard 15 (slotOf 9 []) (slotOf 9 [])).wf = true ∧ (Instr.slotHeard 16 (slotOf 9 []) (slotOf 9 [])).wf = false := by
  decide +kernel

theorem test_wf_stream :
    (Instr.slotHeard 0 (slotOf 9 []) ((slotOf 9 []).take 17)).wf = false ∧
      (Instr.slotHeard 0 (List.replicate 18 ⟨9, [true]⟩) (slotOf 9 [])).wf = false ∧
      (Instr.slotEnd 0 [] [] [] []).wf = false := by decide +kernel

theorem test_wf_break :
    (Instr.breakRecognized ⟨0, 20⟩).wf = true ∧ (Instr.breakRecognized ⟨0, 19⟩).wf = false ∧ (Instr.framingError ⟨0, 19, 0⟩).wf = true ∧
      (Instr.framingError ⟨0, 20, 0⟩).wf = false := by decide

theorem test_wf_response :
    (Instr.configNoResponse (.noAcknowledge 0 2)).wf = true ∧ (Instr.configNoResponse (.noAcknowledge 0 3)).wf = false ∧
      (Instr.configNoResponse (.timeout 59)).wf = true ∧ (Instr.configNoResponse (.timeout 60)).wf = false := by decide +kernel

theorem test_wf_coil : (Instr.coilCheck 1023 0).wf = true ∧ (Instr.coilCheck 0 1024).wf = false := by decide

theorem test_wf_image :
    (Instr.configTransferComplete 7812 (List.replicate 55 0)).wf = true ∧
      (Instr.configTransferComplete 0 (List.replicate 54 0)).wf = false := by decide +kernel

theorem test_wf_late :
    (Instr.configTransferComplete 7813 (List.replicate 55 0)).wf = false ∧ (Instr.configNoResponse (.noAcknowledge 7813 2)).wf = false := by
  decide +kernel

/-! ### Bytes, stamps and tags -/

/-- Table 6-2: pedestal 4's ACK for lane 3. -/
theorem test_ack_frame : (Notice.ack 3).frame 4 = [0x84, 0x01, 0x03, 0xBC] := by decide +kernel

/-- 6.1.1: the lead character of that notice on the line. -/
theorem test_lead_levels :
    characterLevels (0x84, true) = [false, false, false, true, false, false, false, false, true, true, true] := by
  decide +kernel

/-- Table 3-4: the reply word of tag 0A13C2F7h. -/
theorem test_reply_word : Machine.Tag.word 0x0A13C2F7 true 13 = 0x0A13C2F76DA0#48 := by decide +kernel

/-- Table 3-3: the slots of two tags at keys 13 and 1. -/
theorem test_tag_slots :
    Machine.Tag.slot 0x0A13C2F7 13 = 10 ∧ Machine.Tag.slot 0x0B000451 13 = 2 ∧ Machine.Tag.slot 0x0A13C2F7 1 = 6 ∧
      Machine.Tag.slot 0x0B000451 1 = 6 := by decide +kernel

/-- Table 3-3: the keys of frames 0 and 3 of super-frame 1,205. -/
theorem test_slot_keys : slotKeyOf ⟨1205, 0⟩ = 13 ∧ slotKeyOf ⟨1205, 3⟩ = 0 := by decide +kernel

/-- Table 1-4: where frames 1 and 2 begin, and that a super-frame has 16,384 ticks. -/
theorem test_frame_begins : frameBegin 1 = 655 ∧ frameBegin 2 = 1310 ∧ frameBegin 25 = 16384 := by decide

/-- Table 2-5: where slots 4 and 15 begin, with a settle of 12. -/
theorem test_slot_begins : slotBegin 12 4 = 404 ∧ slotBegin 12 15 = 602 := by decide

/-- 5.2.1: the passage from (1,205, 6) to (1,206, 17) spans 36 frames. -/
theorem test_stamp_difference : stampDiff ⟨1205, 6⟩ ⟨1206, 17⟩ = 36 ∧ stampDiff ⟨65535, 24⟩ ⟨0, 0⟩ = 1 := by decide +kernel

/-- 4.7: the window of that passage begins 25 frames before (3,034, 5). -/
theorem test_stamp_before : Stamp.before ⟨3034, 5⟩ 25 = ⟨3033, 5⟩ ∧ Stamp.before ⟨0, 0⟩ 1 = ⟨65535, 24⟩ := by decide +kernel

/-! ### The states the tests start from -/

/-- A pedestal at a position, JOINED, with the default settings, in frame (1,205, `index`) at `offset`, its lane CLEAR, both
neighbours PRESENT and its transmitter waiting. -/
def joinedAt (position index offset : Nat) : State :=
  { State.reset with
    cadence := { Cadence.reset with
      join := .joined
      clock := 100000 * 15625
      frameIdx := index
      offset := offset
      superFrame := 1205
      slotKey := slotKeyOf ⟨1205, index⟩
      nextFilter := 100032 }
    lane := ⟨true, .reset, .reset, .clear, none, 300⟩
    line := { RowLine.reset with tx := .waiting, rx := .hunting }
    neighbours := ⟨⟨.present, 0, some false, .noAlarm, false⟩, ⟨.present, 0, some false⟩, 0, false, false, 0⟩
    startup := { StartUp.reset with
      state := .joined
      straps := some ⟨position, false⟩
      image := some defaultSettings
      supply := .aboveHold
      keyStarted := true } }

/-- A pedestal at position 4 that is LISTENING, in its first tick of it. -/
def listeningFour : State :=
  { joinedAt 4 0 0 with
    cadence := { Cadence.reset with join := .listening, clock := 2000 * 15625, listenFrom := 2000, nextFilter := 2016 }
    startup := { (joinedAt 4 0 0).startup with state := .listening } }

/-- A pedestal in another start-up state, at its 40th tick. -/
def startingIn (state : StartState) : State :=
  { State.reset with
    startup := { StartUp.reset with state := state, supply := .aboveHold }
    cadence := { Cadence.reset with clock := 40 * 15625, nextFilter := 64 } }

/-- A pedestal that is reading its configuration since tick 48. -/
def reading : State :=
  { startingIn .config with
    startup := { StartUp.reset with
      state := .config, straps := some ⟨4, false⟩, supply := .aboveHold, configFrom := 48, port := [.start] }
    cadence := { Cadence.reset with clock := 48 * 15625, nextFilter := 64 } }

/-- A pedestal in supply hold that is to resume in a state. -/
def holding (r : ResumeTo) : State :=
  { State.reset with
    startup := { StartUp.reset with
      state := .hold, straps := some ⟨4, false⟩, image := some defaultSettings, resumeTo := some r, supply := .between } }

/-- The state with a notice from a sender complete in its receiver. -/
def hearing (s : State) (sender : Nat) (n : Notice) : State :=
  { s with line := { s.line with rx := .assembling (n.frame sender) false } }

/-- The state with a notice in transmission. -/
def sendingNow (s : State) (q : Queued) : State :=
  { s with line := { s.line with
      tx := .sending
      sending := q.notice.characters s.position
      txFrom := s.cadence.clock
      queue := [{ q with inTransmission := true }] } }

/-- The levels of a character in the middles of its bit times (Table 6-1): the stop bit, the lead flag, the byte and the start bit. -/
def levelsOf (byte : Byte) (lead : Bool) : BitVec 10 := BitVec.ofNat 10 ((if lead then 512 else 0) + 2 * byte.toNat)

/-- A pending break that has been paired. -/
def brokenAt (s : State) (b : PendingBreak) : State := { s with cadence := { s.cadence with pendingBreak := some b } }

/-- A record of a serial, first and last heard in frames of super-frame 1,205. -/
def recordOf (serial : Serial) (state : RecordState) (first last : Nat) : Record :=
  ⟨serial, true, false, state, ⟨1205, first⟩, ⟨1205, last⟩, 0, 0, 0, 10, 20⟩

/-- 48 records, numbered from 1, of one state. -/
def fullTable (state : Nat → RecordState) : List Record :=
  (List.range 48).map (fun i => recordOf (BitVec.ofNat 32 (i + 1)) (state i) 3 3)

/-- A state after a command. -/
def after (c : Instr) (s : State) : State :=
  match exec c s with
  | .next t => t
  | .fault _ => s
  | .refused _ => s


/-! ### One command at a time -/

section Commands

open Sys2Proof

/-- R175, R176: a service reset keeps the journal and sets the cursor to 0. -/
theorem test_service_reset :
    (after .serviceReset { joinedAt 4 0 0 with
      alarm := ⟨⟨.watched, true, true⟩, [⟨7, 4, .alarm, .watched, ⟨1, 2⟩, 9, true⟩], 3⟩ }).alarm =
      ⟨⟨.noAlarm, false, false⟩, [⟨7, 4, .alarm, .watched, ⟨1, 2⟩, 9, true⟩], 0⟩ := by decide +kernel

/-- R175, R176: a power-on reset empties the journal and names the reset. -/
theorem test_power_on_reset :
    (after .powerOnReset { joinedAt 4 0 0 with
      alarm := ⟨⟨.noAlarm, false, false⟩, [⟨7, 4, .alarm, .watched, ⟨1, 2⟩, 9, true⟩], 3⟩ }) = State.reset := by
  decide +kernel

theorem test_reset_end : (after .resetEnd State.reset).startup.state = .straps := by decide +kernel

/-- R177: position 9 is an end pedestal whatever the row-end pin; positions 0 and 10 are no positions. -/
theorem test_straps :
    (after (.strapsSample 9 false) (startingIn .straps)).startup.straps = some ⟨9, true⟩ ∧
      (after (.strapsSample 0 true) (startingIn .straps)).startup.state = .strapFault ∧
      (after (.strapsSample 10 true) (startingIn .straps)).startup.state = .strapFault ∧
      (after (.strapsSample 1 true) (startingIn .straps)).startup.state = .config := by decide +kernel

/-- R180: an image of zeros passes its check (00h) and fails its ranges. -/
theorem test_image_out_of_range :
    (after (.configTransferComplete 100 (List.replicate 55 0)) reading).startup.defaulted = true := by decide +kernel

/-- R179, Table 11-2: an image written out by hand, with a settle of 14, latch mode LATCHED and one watch entry; every other
setting at its default. -/
theorem test_image_read :
    readImage ([14, 40, 160, 192, 0x08, 0x00, 0x02, 0xEE, 96, 0x01, 0xF4, 0x17, 0x70, 3, 0x0A, 0x13, 0xC2, 0xF7, 1] ++
      List.replicate 35 0 ++ [crc8 ([14, 40, 160, 192, 0x08, 0x00, 0x02, 0xEE, 96, 0x01, 0xF4, 0x17, 0x70, 3, 0x0A, 0x13,
        0xC2, 0xF7, 1] ++ List.replicate 35 0)]) =
      some { defaultSettings with
        settle := 14, latchMode := .latched, watch := ⟨0x0A13C2F7, true⟩ :: List.replicate 7 ⟨0, false⟩ } := by
  decide +kernel

/-- R179: a device address that is not acknowledged ends the transfer after one byte; a transfer given up after six steps at 1,024 ticks
has the device address for reading and one byte read. -/
theorem test_no_response :
    (after (.configNoResponse (.noAcknowledge 0 0)) reading).startup.defaulted = true ∧
      (after (.configNoResponse (.noAcknowledge 0 0)) reading).cadence.join = .listening ∧
      (after (.configNoResponse (.noAcknowledge 0 0)) reading).startup.port = [.start, .send 0xA0, .stop] ∧
      (after (.configNoResponse (.timeout 6)) reading).startup.port =
        [.start, .send 0xA0, .send 0x00, .repeatedStart, .send 0xA1, .read true, .stop] ∧
      (after (.configNoResponse (.timeout 6)) reading).freeRun = 1072 := by decide +kernel

/-- R183: what is resumed after a hold. -/
theorem test_supply_hold :
    (after (.supplyHold 0) (joinedAt 4 3 100)).startup.resumeTo = some .listening ∧
      (after (.supplyHold 0) (startingIn .config)).startup.resumeTo = some .straps ∧
      (after (.supplyHold 0) (joinedAt 4 3 100)).line.tx = .off := by decide +kernel

theorem test_hold_resume :
    (after .holdResume (holding .listening)).cadence.join = .listening ∧
      (after .holdResume (holding .straps)).startup.state = .straps := by decide +kernel

/-- R72, R90: at the first filter tick after a resume to STRAPS, at tick 32, the filters take the raw inputs. -/
theorem test_resume_filters :
    (after (.filterTick true false false false ⟨.last, false⟩) (after .holdResume (holding .straps))).lane =
        ⟨true, ⟨true, false, 0, false⟩, .reset, .waitClear, none, 0⟩ ∧
      (after (.filterTick true false false false ⟨.last, false⟩) (after .holdResume (holding .straps))).freeRun = 32 := by
  decide +kernel

/-- R8, R9, R20: listening expires into frame 0 of super-frame 0 with the mark pending and RUN raised. -/
theorem test_listening_expiry :
    (after .listeningExpiry listeningFour).stamp = ⟨0, 0⟩ ∧
      (after .listeningExpiry listeningFour).cadence.mark = .pending ∧
      (after .listeningExpiry listeningFour).field.request = some .run ∧
      (after .listeningExpiry listeningFour).freeRun = 34768 := by decide +kernel

/-- Table 1-4: from frame 24 the count goes to (1,206, 0) at tick position 0, the frame output high and a mark pending. -/
theorem test_frame_zero :
    (after (.frameStart .before) (joinedAt 4 24 100)).stamp = ⟨1206, 0⟩ ∧
      (after (.frameStart .before) (joinedAt 4 24 100)).tickPosition = 0 ∧
      (after (.frameStart .before) (joinedAt 4 24 100)).cadence.frameOut = true ∧
      (after (.frameStart .before) (joinedAt 4 24 100)).cadence.mark = .pending := by decide +kernel

/-- Table 1-4: frame 2 begins at 1,310. R114: pedestal 4 offers its STATUS at frame index 8. -/
theorem test_frame_counts :
    (after (.frameStart .before) (joinedAt 4 1 100)).tickPosition = 1310 ∧
      (after (.frameStart .before) (joinedAt 4 7 100)).line.queue.length = 1 ∧
      (after (.frameStart .before) (joinedAt 4 8 100)).line.queue.length = 0 := by decide +kernel

/-- The pedestal of `joinedAt` with its mark pending. -/
def marking (offset : Nat) : State :=
  { joinedAt 4 0 offset with cadence := { (joinedAt 4 0 offset).cadence with mark := .pending, markFrame := 1205 } }

theorem test_mark_send :
    (after .markSend (marking 5)).line.tx = .brk ∧
      (after .markSend (marking 5)).line.queue = [⟨.cadence 1205 5 true false, 0, true, false⟩] ∧
      (after .markSend (marking 256)).line.tx = .waiting := by decide +kernel

theorem test_mark_abandon :
    (after .markAbandon (marking 5)).cadence.mark = .absent ∧ (after .markAbandon (marking 5)).cadence.offset = 256 := by
  decide +kernel

/-- A pedestal in the break of its mark. -/
def breaking : State := after .markSend (marking 0)

theorem test_break_release_timeout :
    (after .breakReleaseTimeout breaking).line.tx = .waiting ∧ (after .breakReleaseTimeout breaking).line.queue = [] ∧
      (after .breakReleaseTimeout breaking).cadence.clock = breaking.cadence.clock + 32 * 2048 := by decide +kernel

/-- 1.8: the break lasts 24 bit times, and the CADENCE begins 2 bit times later. R94: a line that returns high 33 bit times after the
break's begin loses the mark. -/
theorem test_own_break :
    (after (.breakRecognized ⟨0, 24⟩) breaking).line.tx = .brk ∧
      (after (.breakRecognized ⟨0, 24⟩) breaking).line.txFrom = breaking.cadence.clock + 26 * 2048 ∧
      (after (.breakRecognized ⟨32, 32⟩) breaking).cadence.mark = .inSending ∧
      (after (.breakRecognized ⟨33, 33⟩) breaking).cadence.mark = .absent ∧
      (after (.breakRecognized ⟨33, 33⟩) breaking).line.queue = [] := by decide +kernel

/-- 1.8: the mark's seven characters end 103 bit times after its break began. -/
theorem test_mark_sent :
    (after .noticeSent (after (.breakRecognized ⟨0, 24⟩) breaking)).cadence.clock = breaking.cadence.clock + 103 * 2048 ∧
      (after .noticeSent (after (.breakRecognized ⟨0, 24⟩) breaking)).cadence.mark = .absent := by decide +kernel

theorem test_window_end :
    (after .transmitWindowEnd { joinedAt 4 0 100 with field := ⟨true, none, true, true⟩ }).field.drive = false := by
  decide +kernel

/-- Table 3-5, frame (1,205, 0) slot 10: the reply of 0A13C2F7h, with amplitudes 702 and 31, is counted. -/
theorem test_slot_reply :
    (after (.slotHeard 10 (slotOf 702 (List.replicate 24 false ++ Machine.Tag.transmission 0x0A13C2F7 true 13)) (slotOf 31 []))
      (joinedAt 4 0 500)).sightings =
      [⟨0x0A13C2F7, true, false, .live, ⟨1205, 0⟩, ⟨1205, 0⟩, 702, 31, 1, 702, 31⟩] := by decide +kernel

/-- Table 2-5, slot 7: with the east face FAULTED and the west below the noise floor the slot is EMPTY. -/
theorem test_slot_faulted :
    (after (.slotHeard 7 (slotOf 25 []) (slotOf 900 (Machine.Tag.transmission 0x0A13C2F7 true 13)))
      { joinedAt 4 0 400 with sampler := ⟨⟨false, 0⟩, ⟨true, 0⟩⟩ }).sightings = [] := by decide +kernel

/-- R40, R68, R73: commands of one moment, 32 ticks on, in either order: a slot's end and a filter tick, and a frame start and a filter
tick. -/
theorem test_same_moment :
    (after (.slotHeard 10 (slotOf 702 (Machine.Tag.transmission 0x0A13C2F7 true 13)) (slotOf 31 []))
      (after (.filterTick false false false false ⟨.last, false⟩) (joinedAt 4 0 498))).sightings.map Record.reads = [1] ∧
    (after (.filterTick true false false false ⟨.last, false⟩) (after (.frameStart .before) (joinedAt 4 1 623))).freeRun = 100032 ∧
    (after (.filterTick true false false false ⟨.last, false⟩)
      (after (.frameStart .before) (joinedAt 4 1 623))).lane.inner.differ = true ∧
    (after (.frameStart .before)
      (after (.filterTick true false false false ⟨.last, false⟩) (joinedAt 4 1 623))).freeRun = 100032 := by decide +kernel

/-- R72: the lane of an end pedestal is CLEAR from the first filter tick, whatever its beams. -/
theorem test_end_pedestal :
    (after (.filterTick true true false false ⟨.last, false⟩) { joinedAt 9 3 100 with
      lane := .reset, startup := { (joinedAt 9 3 100).startup with straps := some ⟨9, true⟩ } }).lane.passage = .clear := by
  decide +kernel

/-- Table 2-7, super-frames 2,304, 2,307 and 2,310. -/
theorem test_coil_check :
    (after (.coilCheck 512 1023) { joinedAt 5 12 600 with sampler := ⟨⟨false, 0⟩, ⟨false, 1⟩⟩ }).sampler.east = ⟨true, 0⟩ ∧
      (after (.coilCheck 512 30) { joinedAt 5 12 600 with sampler := ⟨⟨false, 0⟩, ⟨true, 1⟩⟩ }).sampler.east = ⟨true, 0⟩ ∧
      (after (.coilCheck 512 509) { joinedAt 5 12 600 with sampler := ⟨⟨false, 0⟩, ⟨true, 2⟩⟩ }).sampler.east = ⟨false, 0⟩ := by
  decide +kernel

/-- 4.7: 25 frames silent, from (3,041, 15) to (3,042, 15). -/
theorem test_record_fade :
    ((after (.recordFade .none) { joinedAt 2 15 0 with
      cadence := { (joinedAt 2 15 0).cadence with superFrame := 3042 }
      sightings := [⟨0x12C40088, true, false, .live, ⟨3041, 7⟩, ⟨3041, 15⟩, 252, 1116, 9, 14, 56⟩] }).sightings.map
      Record.state) = [.fading] := by decide +kernel

/-- 4.7: 100 frames silent, at (3,045, 15). -/
theorem test_record_age_free :
    (after .recordAgeFree { joinedAt 2 15 0 with
      cadence := { (joinedAt 2 15 0).cadence with superFrame := 3045 }
      sightings := [⟨0x12C40088, true, false, .fading, ⟨3041, 7⟩, ⟨3041, 15⟩, 252, 1116, 9, 14, 56⟩] }).sightings = [] := by
  decide +kernel

/-- 4.7: marked STRAY at (3,030, 3) with anchor 18, 305, lane 1 no longer busy. -/
theorem test_stray_mark :
    (after .strayMark { joinedAt 2 3 0 with
      cadence := { (joinedAt 2 3 0).cadence with superFrame := 3030 }
      sightings := [⟨0x12C40088, true, false, .live, ⟨3000, 0⟩, ⟨3030, 2⟩, 13554, 229665, 753, 18, 305⟩] }).sightings =
      [⟨0x12C40088, true, false, .stray 18 305, ⟨3000, 0⟩, ⟨3030, 2⟩, 0, 0, 0, 18, 305⟩] := by decide +kernel

/-- 4.7: the reply 22, 260 leaves the record STRAY, the reply 40, 180 releases it. -/
theorem test_stray_moved :
    (applyReply 96 ⟨0x12C40088, true, false, ⟨3036, 4⟩, 22, 260⟩
      [⟨0x12C40088, true, false, .stray 18 305, ⟨3000, 0⟩, ⟨3034, 20⟩, 0, 0, 0, 18, 305⟩]).map Record.state =
        [.stray 18 305] ∧
      applyReply 96 ⟨0x12C40088, true, false, ⟨3041, 7⟩, 40, 180⟩
        [⟨0x12C40088, true, false, .stray 18 305, ⟨3000, 0⟩, ⟨3036, 4⟩, 0, 0, 0, 22, 260⟩] =
        [⟨0x12C40088, true, false, .live, ⟨3041, 7⟩, ⟨3041, 7⟩, 40, 180, 1, 40, 180⟩] := by decide +kernel

/-- Table 5-3: the lane in OUT_CLOSING since (1,205, 6), INNER clear, OUTER broken and sampled clear once. -/
def closing (position index : Nat) : State :=
  { joinedAt position index 100 with
    lane := ⟨true, .reset, ⟨true, true, 3, false⟩, .outClosing, some ⟨1205, 6⟩, 0⟩ }

/-- Table 5-3: the clearing of OUTER completes an OUTBOUND passage, and the CALL goes to the partner. -/
theorem test_passage_completes :
    (after (.filterTick false false false false ⟨.last, false⟩) (closing 3 17)).lane.passage = .clear ∧
      (after (.filterTick false false false false ⟨.last, false⟩) (closing 3 17)).line.queue.map Queued.notice =
        [.call 0 3 ⟨1204, 6⟩ ⟨1205, 17⟩] := by decide +kernel

/-- R182: two equal samples move the key; a movement into SERVICE raises STOP. -/
theorem test_key_service :
    (after (.filterTick false false false true ⟨.last, false⟩) (joinedAt 4 3 100)).startup.keyPending = some .service ∧
      (after (.filterTick false false false true ⟨.last, false⟩)
        (after (.filterTick false false false true ⟨.last, false⟩) (joinedAt 4 3 100))).field.request = some .stop := by
  decide +kernel

theorem test_beam_stuck :
    (after .beamStuck { joinedAt 4 3 100 with lane := ⟨true, ⟨true, false, 1500, false⟩, .reset, .outOpening,
      some ⟨1205, 0⟩, 0⟩ }).lane = ⟨true, ⟨true, false, 1500, true⟩, .reset, .tagOnly, none, 0⟩ := by decide +kernel

theorem test_quiet_end :
    (after .quietEnd { joinedAt 4 3 100 with
      line := { (joinedAt 4 3 100).line with quietFrom := some (100000 * 15625) } }).cadence.clock =
      100000 * 15625 + 22 * 2048 := by decide +kernel

/-- R93, R103: a framing error discards the notice in assembly; 20 bit times low are no framing error, and 19 no break. -/
theorem test_framing_error :
    (after (.framingError ⟨1, 12, 0⟩) (hearing (joinedAt 4 3 100) 3 (.ack 4))).line.rx = .hunting ∧
      (after (.framingError ⟨1, 20, 0⟩) (hearing (joinedAt 4 3 100) 3 (.ack 4))).line.rx ≠ .hunting ∧
      (after (.breakRecognized ⟨1, 19⟩) (hearing (joinedAt 4 3 100) 3 (.ack 4))).line.rx ≠ .hunting := by
  decide +kernel

/-- R103: a notice cut short after its length is discarded at the idle count 11. -/
theorem test_idle_timeout :
    (after .receiverIdleTimeout { joinedAt 4 3 100 with
      line := { (joinedAt 4 3 100).line with rx := .assembling [0x84, 1] false } }).line.rx = .hunting := by decide +kernel

/-- A state with edges that wait on the line. -/
def edged (edges : List Edge) (s : State) : State := { s with line := { s.line with edges := edges } }

/-- A queued notice that has not been tried. -/
def queued (n : Notice) : Queued := ⟨n, 0, false, false⟩

/-- R110: a VERDICT goes before the older ALARM and ACK. -/
theorem test_notice_start :
    ((after .noticeStart { joinedAt 4 3 100 with
      line := { (joinedAt 4 3 100).line with
        queue := [queued (.alarm 4 .unissued .raised false), queued (.ack 3), queued (.verdict 1 4 0 true [])] } }).line.queue.map
      Queued.inTransmission) = [false, false, true] := by decide +kernel

/-- Pedestal 4 with an ACK to send, the line high from now on, and edges to come in sixteenths of a bit time from now. -/
def ready (edges : List (Nat × Bool)) : State :=
  edged (edges.map (fun e => ⟨100000 * 15625 + 128 * e.1, e.2⟩)) { joinedAt 4 3 100 with
    line := { (joinedAt 4 3 100).line with queue := [queued (.ack 3)], idleFrom := 100000 * 15625 } }

/-- R96, R97: position 4 begins 20 bit times after a glitch's end, and not while the line is low. -/
theorem test_glitch :
    (after .noticeStart (ready [(1, false), (9, true)])).line.txFrom = 100000 * 15625 + 128 * 9 + 20 * 2048 ∧
      (after .noticeStart (ready [(1, false)])).line.tx = .waiting := by decide +kernel

/-- A part that comes to the line at this moment, with edges that wait. -/
def waking (edges : List Edge) : State :=
  let s := joinedAt 4 3 100
  s.withLine { s.line.wake s.cadence.clock with edges := edges }

/-- R96, notes/assumptions/40.md: the count runs from the wake; with a falling edge of that moment it stays 0. -/
theorem test_wake :
    ((waking []).waitBits 20).idleCount = 20 ∧
      (((waking [⟨100000 * 15625, false⟩]).readEdges 20 2048).waitBits 20).idleCount = 0 := by decide +kernel

/-- R97, section 6.7: a line that goes low 19 bit times after holds position 4; in the 20th it "begins too". -/
theorem test_begins_too :
    (after .noticeStart (ready [(16 * 19, false)])).line.tx = .waiting ∧
      (after .noticeStart (ready [(16 * 19 + 1, false)])).line.txFrom = 100000 * 15625 + 20 * 2048 := by decide +kernel

/-- R94: 2 bit times after its own break the part is SENDING with no further command, and drives the start bit of its lead low. -/
theorem test_mark_lead :
    ((after (.breakRecognized ⟨0, 24⟩) breaking).waitBits 1).transmitter = .brk ∧
      ((after (.breakRecognized ⟨0, 24⟩) breaking).waitBits 1).drivesLow = false ∧
      ((after (.breakRecognized ⟨0, 24⟩) breaking).waitBits 2).transmitter = .sending ∧
      ((after (.breakRecognized ⟨0, 24⟩) breaking).waitBits 2).drivesLow = true := by decide +kernel

/-- R96: no idle is counted inside the own notice, and the own assembly is not given up there. -/
theorem test_own_idle :
    ((sendingNow (joinedAt 4 3 100) (queued (.ack 3))).waitBits 20).idleCount = 0 ∧
      (after .receiverIdleTimeout { sendingNow (joinedAt 4 3 100) (queued (.ack 3)) with
        line := { (sendingNow (joinedAt 4 3 100) (queued (.ack 3))).line with rx := .assembling [0x84, 1] true } }).line.rx =
        .assembling [0x84, 1] true := by decide +kernel

/-- R99: the eighth failed attempt drops the notice; an earlier one keeps it; in a bit sent low there is no collision. -/
theorem test_collision :
    (after (.collision 3) (sendingNow (joinedAt 4 3 100) ⟨.ack 3, 7, false, false⟩)).line.queue = [] ∧
      (after (.collision 3) (sendingNow (joinedAt 4 3 100) ⟨.ack 3, 6, false, false⟩)).line.queue =
        [⟨.ack 3, 7, false, false⟩] ∧
      (after (.collision 2) (sendingNow (joinedAt 4 3 100) ⟨.ack 3, 6, false, false⟩)).line.tx = .sending := by decide +kernel

/-- 6.1.1: the ACK notice lasts 44 bit times. -/
theorem test_notice_sent :
    (after .noticeSent (sendingNow (joinedAt 4 3 100) (queued (.ack 3)))).cadence.clock = 100000 * 15625 + 44 * 2048 := by
  decide +kernel

/-- Table 6-2: with another check the ACK notice is invalid, and with its own it is not. -/
theorem test_notice_invalid :
    (after .noticeInvalid { joinedAt 3 3 100 with
      line := { (joinedAt 3 3 100).line with rx := .assembling [0x84, 0x01, 0x03, 0xBD] false } }).line.rx = .hunting ∧
      assemblyNotice [0x84, 0x01, 0x03, 0xBC] = some (4, .ack 3) := by decide +kernel

/-- Table 1-4: the break is recognized at p = 2, ten ticks before the CADENCE completes. -/
def atMark : State :=
  brokenAt { marking 12 with cadence := { (marking 12).cadence with superFrame := 1206, markFrame := 1206 } }
    ⟨99990 * 15625 - 100, 2, 1206, true⟩

/-- Table 1-4: pedestal 4 joins at 13, and a super-frame later moves from 12 to 13 with its mark abandoned. -/
theorem test_cadence_joins :
    (after .receiveCadence (brokenAt (hearing listeningFour 1 (.cadence 1205 0 false false))
      ⟨1990 * 15625 - 100, 0, 0, true⟩)).tickPosition = 13 ∧
      (after .receiveCadence (hearing atMark 1 (.cadence 1206 0 false false))).tickPosition = 13 ∧
      (after .receiveCadence (hearing atMark 1 (.cadence 1206 0 false false))).cadence.mark = .absent := by decide +kernel

/-- Table 1-5: the correction across the end of super-frame 1,204 ends at 13 of (1,205, 0), its mark abandoned. -/
theorem test_cadence_corrects :
    (after .receiveCadence (hearing (brokenAt { marking 6 with startup := (joinedAt 2 0 0).startup }
      ⟨99990 * 15625 - 100, 16380, 1204, true⟩) 5 (.cadence 1205 0 false false))).tickPosition = 13 ∧
      (after .receiveCadence (hearing (brokenAt { marking 6 with startup := (joinedAt 2 0 0).startup }
        ⟨99990 * 15625 - 100, 16380, 1204, true⟩) 5 (.cadence 1205 0 false false))).cadence.mark = .absent := by decide +kernel

/-- A STATUS that reports the lane busy and the west face faulted. -/
def busyStatus : Notice := .status 1205 ⟨true, false, false, false, true, false, false, false, false, false⟩ .unissued false

theorem test_receive_status :
    (after .receiveStatus (hearing (joinedAt 4 3 100) 3 busyStatus)).neighbours.west = ⟨.present, 0, some true, .unissued, false⟩ ∧
      (after .receiveStatus (hearing (joinedAt 4 3 100) 5 busyStatus)).neighbours.east = ⟨.present, 0, some true⟩ := by
  decide +kernel

/-- R131, R132: an empty answer is one empty final part. -/
theorem test_receive_call :
    (after .receiveCall (hearing (joinedAt 4 3 100) 3 (.call 17 3 ⟨1204, 20⟩ ⟨1205, 3⟩))).line.queue.map Queued.notice =
      [.evidence 17 0 true []] := by decide +kernel

/-- 8.5.1, the candidate of pedestal 3's own snapshot. -/
def bookA : Candidate := ⟨0x0A13C2F7, true, false, 6300, 41200, 0, 0, 58, none, none, false⟩

/-- 8.5.1, the adjudication it is in. -/
def callA : Adjudication :=
  ⟨17, 3, .passage, .outbound, ⟨1204, 6⟩, ⟨1205, 3⟩, .collecting, .nothing, [], none, [bookA], some 3, none⟩

/-- 8.5.1, pedestal 3 with that adjudication. -/
def collecting (deadline : Nat) : State :=
  { joinedAt 3 3 100 with adj := ⟨[{ callA with deadline := some deadline }], [], 18⟩ }

/-- 8.5.1: with the partner's final evidence the share is 224 and the tag is attributed ALARM. -/
theorem test_receive_evidence :
    (after .receiveEvidence (hearing (collecting 3) 4
      (.evidence 17 0 true [⟨0x0A13C2F7, true, false, 35800, 4100, 51⟩]))).line.queue.map Queued.notice =
      [.verdict 17 3 0 true [⟨0x0A13C2F7, 224, .alarm⟩]] := by decide +kernel

/-- 8.5.1: with no evidence at the deadline the share is 221. -/
theorem test_evidence_deadline :
    (after (.evidenceDeadline .none) (collecting 0)).line.queue.map Queued.notice =
      [.verdict 17 3 0 true [⟨0x0A13C2F7, 221, .alarm⟩]] := by decide +kernel

/-- 8.5.1 and 8.11: the other shares. -/
theorem test_shares : shareOf 3000 52000 = 13 ∧ shareOf 42000 11000 = 202 ∧ shareOf 58000 7000 = 227 := by decide +kernel

/-- 8.11, case A: pedestal 4 holds 0F3A6E15h at 182 and hears lane 3's 202. -/
def contested : State :=
  { joinedAt 4 11 100 with
    adj := ⟨[⟨92, 4, .passage, .outbound, ⟨1204, 6⟩, ⟨1205, 3⟩, .holding, .final, [0], some .normal,
      [⟨0x0F3A6E15, true, false, 12000, 9000, 25000, 1500, 80, some 182, some (.attributed .alarm), false⟩], none, some 3⟩], [], 93⟩ }

theorem test_receive_verdict :
    (after .receiveVerdict (hearing contested 3 (.verdict 17 3 0 true [⟨0x0F3A6E15, 202, .alarm⟩]))).adj.claims =
        [⟨0x0F3A6E15, 3, 202, 17, 10⟩] ∧
      ((after .receiveVerdict (hearing contested 3 (.verdict 17 3 0 true [⟨0x0F3A6E15, 202, .alarm⟩]))).adj.list.flatMap
        Adjudication.candidates).map Candidate.yielded = [true] := by decide +kernel

/-- Pedestal 4's call 92 of 8.11, case B in its end: nobody contests it, and its hold is over. -/
def settling : State :=
  { contested with adj := { contested.adj with list := contested.adj.list.map (fun a => { a with hold := some 0 }) } }

theorem test_hold_expiry :
    (after (.holdExpiry .none) settling).alarm.latch = ⟨.unissued, false, false⟩ ∧
      (after (.holdExpiry .none) settling).line.queue.map Queued.notice =
        [.settlement 92 4 0 true [⟨0x0F3A6E15, .alarm⟩], .alarm 4 .unissued .raised false] := by decide +kernel

/-- Table 9-3: the SETTLEMENT of call 40 gives the entry, with grace 6,000, and that of call 77 removes it. -/
theorem test_receive_settlement :
    (after .receiveSettlement (hearing (joinedAt 5 3 100) 2 (.settlement 40 2 0 true [⟨0x0C09D311, .carriedIn⟩]))).carried =
        [⟨0x0C09D311, 6000⟩] ∧
      (after .receiveSettlement (hearing { joinedAt 2 3 100 with carried := [⟨0x0C09D311, 1496⟩] } 5
        (.settlement 77 5 0 true [⟨0x0C09D311, .turnback⟩]))).carried = [] := by decide +kernel

theorem test_receive_alarm :
    (after .receiveAlarm (hearing (joinedAt 4 3 100) 3 (.alarm 3 .unissued .raised false))).westSegment = .slowFlash ∧
      (after .receiveAlarm (hearing (joinedAt 4 3 100) 3 (.alarm 2 .unissued .raised false))).westSegment = .dark := by
  decide +kernel

/-- Table 10-5: pedestal 3's latch UNISSUED with the lane in IN_OPENING. -/
def alarmed (passage : Passage) : State :=
  { joinedAt 3 3 100 with
    alarm := ⟨⟨.unissued, false, false⟩, [⟨0x14A7230B, 3, .alarm, .unissued, ⟨1204, 0⟩, 3, false⟩], 0⟩
    lane := ⟨true, .reset, ⟨true, false, 1, false⟩, passage, some ⟨1205, 2⟩, 0⟩ }

/-- Table 10-5: acknowledged with clear pending; Table 10-6: with the lane CLEAR the latch clears. -/
theorem test_receive_ack :
    (after .receiveAck (hearing (alarmed .inOpening) 4 (.ack 3))).alarm.latch = ⟨.unissued, true, true⟩ ∧
      (after .receiveAck (hearing (alarmed .clear) 0 (.ack 3))).alarm.latch = ⟨.noAlarm, false, false⟩ := by decide +kernel

/-- R174: the entry at the cursor, and the cursor moves past it. -/
theorem test_receive_journal_call :
    (after .receiveJournalCall (hearing (alarmed .clear) 0 (.journalCall 3 255))).line.queue.map Queued.notice =
        [.journal 0 (some ⟨0x14A7230B, 3, .alarm, .unissued, ⟨1204, 0⟩, false⟩)] ∧
      (after .receiveJournalCall (hearing (alarmed .clear) 0 (.journalCall 3 255))).alarm.cursor = 1 := by decide +kernel

theorem test_receive_journal :
    (after .receiveJournal (hearing (joinedAt 4 3 100) 5 (.journal 0 none))).neighbours.east.presence = .present := by
  decide +kernel

/-- The neighbours with their counts at 6, the line's at 6 and the clash at 20. -/
def due (silence clash : Nat) : State :=
  { joinedAt 4 3 100 with
    neighbours := ⟨⟨.present, silence, some true, .watched, true⟩, ⟨.present, silence, some true⟩, silence, false, true, clash⟩
    adj := ⟨[], [⟨7, 3, 200, 1, 0⟩, ⟨8, 3, 200, 1, 1⟩], 0⟩
    carried := [⟨7, 0⟩, ⟨8, 1⟩] }

theorem test_neighbour_absent :
    (after .neighbourAbsent (due 6 0)).neighbours.west = ⟨.absent, 6, none, .noAlarm, false⟩ ∧
      (after .neighbourAbsent (due 5 0)).neighbours = (due 5 0).neighbours := by decide +kernel

theorem test_line_silent :
    (after .lineSilent (due 6 0)).faultSegment = .steady ∧ (after .lineSilent (due 5 0)).neighbours.lineSilent = false := by
  decide +kernel

theorem test_clash_clear :
    (after .clashClear (due 0 20)).neighbours.clash = false ∧ (after .clashClear (due 0 19)).neighbours.clash = true := by
  decide +kernel

theorem test_claim_expiry : (after .claimExpiry (due 0 0)).adj.claims = [⟨8, 3, 200, 1, 1⟩] := by decide +kernel

theorem test_carried_in_expiry : (after .carriedInExpiry (due 0 0)).carried = [⟨8, 1⟩] := by decide +kernel

/-- 6.4: the characters of Table 6-2, one after another. -/
theorem test_characters :
    (after (.characterReceived 11 (levelsOf 0x01 false) true) (after (.characterReceived 11 (levelsOf 0x84 true) true) (joinedAt 3 3 100))).line.rx =
      .assembling [0x84, 0x01] false := by decide +kernel

/-- R12: a break that ended 55 bit times before the lead character's end is paired; one bit time earlier it is not. -/
theorem test_lead_pairs :
    (after (.characterReceived 55 (levelsOf 0x11 true) true) (brokenAt (joinedAt 3 3 100) ⟨100000 * 15625, 0, 0, false⟩)).cadence.pendingBreak =
        some ⟨100000 * 15625, 0, 0, true⟩ ∧
      (after (.characterReceived 56 (levelsOf 0x11 true) true) (brokenAt (joinedAt 3 3 100) ⟨100000 * 15625, 0, 0, false⟩)).cadence.pendingBreak =
        none := by decide +kernel

end Commands

/-! ### States that meet the hypotheses of the statements, clause by clause -/

section Witnesses

open Sys2Proof

/-- Room for offers, from its three facts. -/
theorem roomOf {s : State} {n : Nat} (h : s.line.tx ≠ .off ∧ s.line.queue.length + n ≤ 12 ∧ s.line.dropped = []) :
    s.HasRoom n := ⟨h.1, h.2.1, h.2.2⟩

/-- A sound table, from facts that can be decided. -/
theorem tableOf {t : List Record}
    (h : (∀ r ∈ t, r.westSum ≤ 16777215 ∧ r.eastSum ≤ 16777215 ∧ r.reads ≤ 65535 ∧
        (r.reads = 0 → r.westSum = 0 ∧ r.eastSum = 0) ∧ (r.isStray = true → r.reads = 0)) ∧
      t.Pairwise (fun a b => a.serial.toNat < b.serial.toNat) ∧ strayCount t ≤ 16) : TableSound t :=
  ⟨fun r hr => ⟨(h.1 r hr).1, (h.1 r hr).2.1, (h.1 r hr).2.2.1, (h.1 r hr).2.2.2.1, (h.1 r hr).2.2.2.2⟩, h.2.1, h.2.2⟩

/-- A sound lane monitor, from facts that can be decided. -/
theorem laneOf {l : LaneMonitor}
    (h : (∀ b ∈ l.passage.beams, (l.inner.broken, l.outer.broken) = b) ∧ l.startStamp.isSome = l.passage.inProgress ∧
      (l.passage ≠ .clear → l.clearRun = 0) ∧ (l.started = false → l.clearRun = 0) ∧ l.clearRun ≤ 65535 ∧
      (l.passage = .tagOnly ↔ (l.inner.stuck = true ∨ l.outer.stuck = true)) ∧ (l.inner.stuck = true → l.inner.broken = true) ∧
      (l.outer.stuck = true → l.outer.broken = true) ∧ l.inner.duration ≤ 1500 ∧ l.outer.duration ≤ 1500) : l.Sound :=
  ⟨fun b hb => h.1 b hb, h.2.1, h.2.2.1, h.2.2.2.1, h.2.2.2.2.1, h.2.2.2.2.2.1, h.2.2.2.2.2.2.1, h.2.2.2.2.2.2.2.1,
    h.2.2.2.2.2.2.2.2.1, h.2.2.2.2.2.2.2.2.2⟩

/-- The reset state with a command waiting. -/
def kept0 : State := { State.reset with pending := [.resetEnd] }

theorem witness_StepRunsFrontCommand : State.reset.pending = [] ∧ kept0.pending = [.resetEnd] := by decide

theorem witness_AbsentEventsChangeNothing :
    (joinedAt 4 3 100).startup.state ≠ .reset ∧ (joinedAt 4 3 100).startup.state ≠ .straps ∧
      (joinedAt 4 3 100).startup.state ≠ .config ∧ (joinedAt 4 3 100).startup.state ≠ .hold ∧
      (joinedAt 4 3 100).cadence.join ≠ .listening ∧ listeningFour.cadence.join ≠ .joined ∧
      (after (.slotHeard 0 (slotOf 9 []) (slotOf 9 [])) (joinedAt 4 3 100)).cadence.slotsEnded = 1 ∧
      (after (.coilCheck 500 500) (joinedAt 4 12 100)).cadence.coilChecked = true ∧ breaking.line.lowFrom ≠ none ∧
      (joinedAt 4 3 100).cadence.mark ≠ .pending ∧ (joinedAt 4 3 100).line.tx ≠ .brk ∧ State.reset.clockRuns = false ∧
      State.reset.line.rx = .off ∧ (joinedAt 4 3 100).line.quietFrom = none ∧ (joinedAt 4 3 100).line.rx = .hunting ∧
      (joinedAt 4 3 100).line.tx ≠ .sending ∧ State.reset.line.tx ≠ .waiting ∧ (joinedAt 4 3 100).incoming = none ∧
      (sendingNow (joinedAt 4 3 100) ⟨.ack 3, 6, false, false⟩).line.tx = .sending ∧
      (sendingNow (joinedAt 4 3 100) ⟨.ack 3, 6, false, false⟩).line.sentLevel 0 = some false := by
  decide +kernel

/-- An edge that is seen at its boundary and one a sixteenth of a bit time later that is not; one now, one from before the break; and the
receiver OFF. -/
theorem witness_TimeReachesTheMoment :
    (joinedAt 4 3 100).clockRuns = true ∧ (joinedAt 4 3 100).cadence.join = .joined ∧ listeningFour.clockRuns = true ∧
      listeningFour.cadence.join ≠ .joined ∧ (joinedAt 4 3 100).line.rx ≠ .off ∧ State.reset.line.rx = .off ∧
      (joinedAt 4 3 100).cadence.clock ≤ 100000 * 15625 ∧ (joinedAt 4 3 100).line.idleFrom ≤ 100000 * 15625 ∧
      (joinedAt 4 3 100).line.edges = [] ∧
      ((ready [(16 * 19, false)]).readEdges 20 2048).line.edges = [] ∧
      ((ready [(16 * 19 + 1, false)]).readEdges 20 2048).line.edges.length = 1 ∧ (ready []).line.lowFrom = none ∧
      ((ready [(0, false)]).takeEdge ⟨100000 * 15625, false⟩).line.lowFrom ≠ none ∧
      (edged [⟨breaking.line.idleFrom - 1, false⟩] breaking).readEdges 20 2048 = breaking := by decide +kernel

/-- A state within its capacities from which a step is a filter tick that completes a passage. -/
def kept : State := { closing 3 17 with adj := ⟨[callA], [], 18⟩, pending := [.filterTick false false false false ⟨.last, false⟩] }

theorem witness_CapacityKept :
    kept.WithinCapacity ∧ kept.Distinct ∧ kept.adj.list.Pairwise (fun a b => a.callId ≠ b.callId) ∧
      (∀ a ∈ kept.adj.list, ∀ k : Nat, k < 48 → a.callId ≠ kept.adj.nextCall + BitVec.ofNat 8 k) ∧ ∃ t, step kept = .next t :=
  ⟨⟨by decide, by decide, by decide, by decide, by decide, by decide, by decide⟩, ⟨by decide, by decide, by decide, by decide⟩,
    by decide, by decide, _, rfl⟩

theorem witness_ModesKept : kept.ModesAgree ∧ ∃ t, step kept = .next t :=
  ⟨⟨by decide, by decide, by decide, by decide, by decide, by decide, by decide⟩, _, rfl⟩

theorem witness_LaneSoundKept : kept.lane.Sound ∧ ∃ t, step kept = .next t := ⟨laneOf (by decide), _, rfl⟩

theorem witness_TableSoundKept :
    TableSound (fullTable fun i => if i < 16 then .stray 10 20 else .live) :=
  tableOf (by decide +kernel)

theorem witness_AlarmSoundKept : (alarmed .clear).alarm.Sound :=
  ⟨by decide, by decide, by decide, by decide⟩

theorem witness_NoticesRoundTrip :
    (Notice.call 17 8 ⟨4198, 24⟩ ⟨4200, 0⟩).wf = true ∧ (Notice.journal 31 (some ⟨7, 8, .repeated, .watched, ⟨1, 24⟩, true⟩)).wf = true ∧
      (Notice.evidence 1 0 true (List.replicate 4 ⟨1, true, true, 2, 3, 4⟩)).wf = true := by decide +kernel

theorem witness_ConfigImageRoundTrip : defaultSettings.inRange ∧
    ({ defaultSettings with settle := 24, grace := 500, holdOff := 3000, strayAge := 250, soloThreshold := 248 } : Settings).inRange := by
  constructor <;> (unfold Settings.inRange; decide)

theorem witness_SingleBitErrorsGarbled :
    decodeWord 13 (Machine.Tag.word 0x0A13C2F7 true 13 ^^^ (1#48 <<< 47)) = .garbled ∧
      decodeWord 13 (Machine.Tag.word 0x0A13C2F7 true 13 ^^^ (1#48 <<< 0)) = .garbled ∧
      decodeWord 13 (Machine.Tag.word 0x0A13C2F7 true 13) = .reply 0x0A13C2F7 true := by decide +kernel

theorem witness_ResetsLeave : Instr.powerOnReset = .powerOnReset ∨ Instr.powerOnReset = .serviceReset := by decide

/-- The three commands of the statement, one to a conjunct. -/
theorem witness_QueueEmptiedWithNoReport :
    (after .powerOnReset (sendingNow (joinedAt 4 3 100) (queued (.ack 3)))).line.queue = [] ∧
      (after .serviceReset (sendingNow (joinedAt 4 3 100) (queued (.ack 3)))).line.queue = [] ∧
      (after (.supplyHold 0) (sendingNow (joinedAt 4 3 100) (queued (.ack 3)))).line.queue = [] ∧
      (joinedAt 4 3 100).startup.state ≠ .reset ∧ (joinedAt 4 3 100).startup.state ≠ .hold := by decide +kernel

theorem witness_StartSequence :
    State.reset.startup.state = .reset ∧ (startingIn .straps).startup.state = .straps ∧
      (startingIn .straps).cadence.clock ≤ 48 * 15625 ∧
      (1 ≤ (1#4).toNat ∧ (1#4).toNat ≤ 9) ∧ (1 ≤ (9#4).toNat ∧ (9#4).toNat ≤ 9) ∧ (0#4).toNat = 0 ∧ 10 ≤ (10#4).toNat := by
  decide

theorem witness_ConfigurationTaken :
    reading.startup.state = .config ∧ reading.cadence.clock ≤ (reading.startup.configFrom + 1024) * 15625 ∧
      (defaultSettings.bytes ++ [crc8 defaultSettings.bytes]).length = 55 ∧
      reading.cadence.clock + 7812 * 2048 ≤ (reading.startup.configFrom + 1024) * 15625 ∧
      (reading.startup.configFrom + 1024) * 15625 < reading.cadence.clock + 7813 * 2048 ∧
      (after (.configTransferComplete 7812 (defaultSettings.bytes ++ [crc8 defaultSettings.bytes])) reading).startup.defaulted = false ∧
      (after (.configTransferComplete 7813 (defaultSettings.bytes ++ [crc8 defaultSettings.bytes])) reading).startup.defaulted = true := by
  decide +kernel

theorem witness_HoldEntered :
    (joinedAt 4 3 100).startup.state ≠ .reset ∧ (joinedAt 4 3 100).startup.state ≠ .hold ∧
      (startingIn .strapFault).startup.state ≠ .reset ∧ (startingIn .strapFault).startup.state ≠ .hold := by decide

theorem witness_HoldResumed (r : ResumeTo) :
    (holding r).startup.state = .hold ∧ (holding r).startup.resumeTo = some r := ⟨rfl, rfl⟩

theorem witness_ListeningExpires :
    listeningFour.cadence.join = .listening ∧ listeningFour.startup.state = .listening ∧
      listeningFour.cadence.lastQualifying = none ∧ listeningFour.field.running = false ∧ listeningFour.field.request = none := by
  decide

/-- Both clauses: from frame 23 and from frame 24, at its last offset, with a CADENCE adopted 512 ticks and 513 ticks before. -/
theorem witness_FrameStartCounts :
    (joinedAt 4 23 655).startup.state = .joined ∧ (joinedAt 4 23 655).cadence.join = .joined ∧
      (joinedAt 4 24 656).cadence.frameIdx = 24 ∧ (joinedAt 4 24 656).cadence.offset ≤ frameLength 24 ∧
      (joinedAt 4 23 655).cadence.frameIdx < 24 ∧ (joinedAt 4 23 655).cadence.offset ≤ frameLength 23 ∧
      (after (.frameStart .before) { joinedAt 4 24 656 with
        cadence := { (joinedAt 4 24 656).cadence with lastQualifying := some (100000 - 512) } }).cadence.mark = .absent ∧
      (after (.frameStart .before) { joinedAt 4 24 656 with
        cadence := { (joinedAt 4 24 656).cadence with lastQualifying := some (100000 - 513) } }).cadence.mark = .pending := by
  decide +kernel

/-- A passage in progress whose start stamp is 501 frames old at the next frame start, with beams broken and lists counting. -/
def counting (index : Nat) : State :=
  { due 4 19 with
    cadence := { (joinedAt 4 index 0).cadence with superFrame := 1225 }
    field := ⟨false, some .run, false, false⟩
    carried := [⟨8, 1⟩]
    lane := ⟨true, ⟨true, false, 1499, false⟩, ⟨true, false, 2, false⟩, .outSpanned, some ⟨1205, 0⟩, 0⟩ }

theorem witness_FrameStartCountsBlocks :
    (counting 0).startup.state = .joined ∧ (counting 0).cadence.join = .joined ∧ (counting 0).cadence.frameIdx < 24 ∧
      (counting 24).cadence.frameIdx = 24 ∧ (counting 24).cadence.frameIdx < 25 ∧ (counting 0).lane.started = true ∧
      (∀ e ∈ (counting 0).carried, 0 < e.grace) ∧ (counting 0).lane.startStamp = some ⟨1205, 0⟩ ∧
      (counting 0).lane.passage.inProgress = true ∧
      (after (.frameStart .before) (counting 0)).lane.startStamp = some ⟨1205, 1⟩ := by decide +kernel

theorem witness_FrameStartOffersStatus :
    (joinedAt 4 7 655).HasRoom 1 ∧ (joinedAt 4 7 655).startup.state = .joined ∧ (joinedAt 4 7 655).cadence.join = .joined ∧
      (joinedAt 4 7 655).cadence.frameIdx < 25 ∧ (∀ c ∈ (joinedAt 4 7 655).adj.claims, 0 < c.remaining) ∧
      (after (.frameStart .before) (joinedAt 4 7 655)).cadence.frameIdx = 2 * 4 ∧
      (after (.frameStart .before) (joinedAt 4 8 655)).cadence.frameIdx ≠ 2 * 4 :=
  ⟨roomOf (by decide), by decide +kernel⟩

/-- A pending mark at a queue of twelve: eleven of one notice, then another. -/
def filled (n d : Notice) : State :=
  { marking 5 with line := { (marking 5).line with queue := List.replicate 11 (queued n) ++ [queued d] } }

/-- A mark that goes out at the last tick it may, one that waits for a line that is low, and the break of one; and at a full queue one for
which a STATUS, a final VERDICT part and a CALL of no adjudication are dropped. -/
theorem witness_MarksSentOrLost :
    (marking 255).HasRoom 1 ∧ (marking 255).readEdges 12 2048 = marking 255 ∧ (marking 255).startup.state = .joined ∧
      (marking 255).cadence.join = .joined ∧ (marking 255).cadence.mark = .pending ∧ (marking 255).cadence.frameIdx = 0 ∧
      (marking 255).line.tx = .waiting ∧ (marking 255).line.quietFrom = none ∧ (marking 255).line.lowFrom = none ∧
      ((marking 255).toMoment ((marking 255).line.idleFrom + 12 * 2048)).cadence.offset ≤ 255 ∧
      ((edged [⟨100000 * 15625 - 2048, false⟩] (marking 5)).readEdges 12 2048).line.lowFrom ≠ none ∧ breaking.clockRuns = true ∧
      breaking.line.tx = .brk ∧ breaking.line.sending = [] ∧
      (∀ x ∈ [(filled (.ack 1) busyStatus, busyStatus),
          (filled (.verdict 8 3 0 false []) (.verdict 9 3 1 true []), .verdict 9 3 1 true []),
          (filled (.verdict 8 3 0 false []) (.call 9 3 ⟨1, 2⟩ ⟨1, 3⟩), .call 9 3 ⟨1, 2⟩ ⟨1, 3⟩)],
        x.1.readEdges 12 2048 = x.1 ∧ x.1.line.queue.length = 12 ∧ x.1.line.dropped = [] ∧ x.1.line.queue.drop 11 = [queued x.2] ∧
          (∀ y ∈ x.1.line.queue, y.notice.priority ≤ x.2.priority) ∧
          (after .markSend x.1).line.queue =
            x.1.line.queue.take 11 ++ [⟨.cadence 1205 5 true false, 0, true, false⟩]) :=
  ⟨roomOf (by decide), by decide +kernel⟩

theorem witness_TransmitWindowReleased :
    (joinedAt 4 3 319).startup.state = .joined ∧ (joinedAt 4 3 319).cadence.join = .joined ∧ carrierPattern 0 32 = true ∧
      carrierPattern 15 319 = true ∧ carrierPattern 15 320 = false ∧ Machine.Tag.readKey (carrierPattern 5) = 5 := by
  decide +kernel

/-- R34's own example, a frame begun at offset 13 with the key's bit 2 at 1 and at 0; two drives; a frame that follows too soon. -/
theorem witness_TransmitWindowReleased_tag :
    Machine.Tag.keyRead (Machine.Tag.frameDrive 4 13) 320 32 = some 15 ∧
      Machine.Tag.cellZeroFrom (Machine.Tag.frameDrive 4 13) 320 0 32 = some 13 ∧
      Machine.Tag.keyRead (Machine.Tag.frameDrive 0b1010 13) 320 32 = some 0b1011 ∧
      Machine.Tag.cellZeroFrom (Machine.Tag.frameDrive 0b1010 13) 320 0 32 = some 16 ∧
      Machine.Tag.keyRead (Machine.Tag.overlap (Machine.Tag.frameDrive 5 0) (Machine.Tag.frameDrive 12 0)) 320 335 = some 13 ∧
      Machine.Tag.keyRead (Machine.Tag.frameDrive 5 0) 320 31 = none ∧
      Machine.Tag.reply 0x0A13C2F7 true (Machine.Tag.frameDrive 13 0) 320 335 = some (10, 0x0A13C2F76DA0#48) ∧
      Machine.Tag.reply 0x0A13C2F7 true (Machine.Tag.frameDrive 13 161) 320 335 = none ∧
      (∃ read, Machine.Tag.keyRead (Machine.Tag.frameDrive 13 160) 320 335 = some read ∧
        (Machine.Tag.reply 0x0A13C2F7 true (Machine.Tag.frameDrive 13 160) 320 335).isSome = true) ∧
      (joinedAt 4 3 319).cadence.startOffset ≤ (joinedAt 4 3 319).cadence.offset ∧
      ({ joinedAt 4 3 319 with field := { (joinedAt 4 3 319).field with drive := true } } : State).carrier = true := by
  refine ⟨by decide +kernel, by decide +kernel, by decide +kernel, by decide +kernel, by decide +kernel, by decide +kernel,
    by decide +kernel, by decide +kernel, ⟨15, by decide +kernel, by decide +kernel⟩, by decide +kernel, by decide +kernel⟩

/-- The state with another start offset and skipped ticks in its frame. -/
def cutAt (s : State) (start : Nat) (skips : List (Nat × Nat)) : State :=
  { s with cadence := { s.cadence with startOffset := start, skips := skips } }

/-- Slot 0 with its work still to be done at its end, one that the start offset cuts and one cut by one skipped tick; and amplitudes
below and at the noise floor. -/
theorem witness_SlotRepliesApplied :
    (joinedAt 4 0 350).startup.state = .joined ∧ (joinedAt 4 0 350).cadence.join = .joined ∧
      320 + (joinedAt 4 0 350).settings.settle + 18 * 0 = 332 ∧ 332 < (cutAt (joinedAt 4 0 350) 333 []).cadence.startOffset ∧
      (349, 1) ∈ (cutAt (joinedAt 4 0 350) 0 [(349, 1)]).cadence.skips ∧ 349 < 332 + 18 ∧ 332 < 349 + 1 ∧
      (cutAt (joinedAt 4 0 350) 332 [(350, 9), (300, 32)]).cadence.startOffset ≤ 332 ∧ 332 + 18 ≤ 350 ∧ 300 + 32 ≤ 332 ∧
      (joinedAt 4 0 350).cadence.slotsEnded ≤ 0 ∧ (joinedAt 4 0 350).cadence.offset ≤ 332 + 18 ∧ (slotOf 40 []).length = 18 ∧
      min 1023 ((((slotOf 40 []).drop 2).take 14).foldl (fun m x => max m x.envelope) 0) = 40 ∧
      (joinedAt 4 0 350).settings.noiseFloor ≤ 40 ∧ ¬ (joinedAt 4 0 350).settings.noiseFloor ≤ 39 ∧
      (((slotOf 40 (Machine.Tag.transmission 9 true 13)).drop 2).take 14).flatMap FaceTick.bits =
        List.replicate 0 false ++ Machine.Tag.transmission 9 true 13 ++ List.replicate 48 false ∧
      (joinedAt 4 0 350).sampler.west.faulted = false ∧ (joinedAt 4 0 350).cadence.slotKey = 13 := by decide +kernel

/-- The GARBLED clause: a stream of zeros has no lead-in, and the word of the second fails its check. -/
theorem witness_SlotRepliesApplied_garbled :
    (∀ i, i < 112 → ((List.replicate 112 false).drop i).take 16 ≠ bitsOf 0xFF01#16) ∧
      (((slotOf 40 (bitsOf 0xFF01#16 ++ bitsOf (0x0A13C2F76DA1#48))).drop 2).take 14).flatMap FaceTick.bits =
        List.replicate 0 false ++ bitsOf 0xFF01#16 ++ bitsOf (0x0A13C2F76DA1#48) ++ List.replicate 48 false ∧
      crc8 (be32 ((0x0A13C2F76DA1#48).extractLsb' 16 32) ++ [(0x0A13C2F76DA1#48).extractLsb' 8 8]) ≠
        (0x0A13C2F76DA1#48).extractLsb' 0 8 ∧
      (after (.slotHeard 0 (slotOf 40 []) (slotOf 9 [])) (joinedAt 4 0 350)).sightings = [] ∧
      (after (.slotHeard 0 (slotOf 40 (bitsOf 0xFF01#16 ++ bitsOf (0x0A13C2F76DA1#48))) (slotOf 9 [])) (joinedAt 4 0 350)).sightings =
        [] := by decide +kernel

/-- A table of 48 with one FADING record, one of 48 with one STRAY record and none FADING, and one of 48 LIVE records; the
newcomer is serial 100. -/
theorem witness_NewSerialsRecorded :
    TableSound (fullTable fun i => if i = 0 then .fading else .live) ∧ TableSound (fullTable fun i => if i = 0 then .stray 1 2 else .live) ∧
      TableSound (fullTable fun _ => .live) ∧ TableSound ((fullTable fun _ => .live).take 47) ∧
      (∀ x ∈ fullTable fun _ => .live, x.serial ≠ 100) ∧ (fullTable fun _ => .live).length = 48 ∧
      ((fullTable fun _ => .live).take 47).length < 48 ∧
      recordOf 1 .fading 3 3 ∈ fullTable (fun i => if i = 0 then .fading else .live) ∧
      (∀ x ∈ fullTable (fun i => if i = 0 then .fading else .live), x.state = .fading → x = recordOf 1 .fading 3 3) ∧
      recordOf 1 (.stray 1 2) 3 3 ∈ fullTable (fun i => if i = 0 then .stray 1 2 else .live) ∧
      (∀ x ∈ fullTable (fun i => if i = 0 then .stray 1 2 else .live), x.state ≠ .fading) ∧
      (∀ x ∈ fullTable (fun i => if i = 0 then .stray 1 2 else .live), x.isStray = true → x = recordOf 1 (.stray 1 2) 3 3) ∧
      (∀ x ∈ fullTable (fun _ => .live), x.state = .live) :=
  ⟨tableOf (by decide +kernel), tableOf (by decide +kernel), tableOf (by decide +kernel), tableOf (by decide +kernel), by decide +kernel⟩

/-- A record heard in this frame, a LIVE one heard before, and a STRAY one moved by the step and by one more. -/
theorem witness_KnownSerialsCounted :
    TableSound [recordOf 1 .live 2 3, recordOf 2 (.stray 18 305) 0 2] ∧ (recordOf 1 .live 2 3).lastStamp = ⟨1205, 3⟩ ∧
      (recordOf 1 .live 2 3).lastStamp ≠ ⟨1205, 4⟩ ∧ (recordOf 1 .live 2 3).isStray = false ∧
      (recordOf 2 (.stray 18 305) 0 2).lastStamp ≠ ⟨1205, 4⟩ ∧ (recordOf 2 (.stray 18 305) 0 2).state = .stray 18 305 ∧
      ((114 : Int) - 18).natAbs ≤ 96 ∧ 96 < ((115 : Int) - 18).natAbs :=
  ⟨tableOf (by decide +kernel), by decide +kernel⟩

/-- Readings at each edge of the good range: 40 and 1000 are bad, 41 and 999 good. -/
theorem witness_CoilCheckJudgesFaces :
    (joinedAt 5 12 621).startup.state = .joined ∧ (joinedAt 5 12 621).cadence.join = .joined ∧
      (joinedAt 5 12 622).cadence.frameIdx = 12 ∧ (joinedAt 5 12 622).cadence.offset ≤ 610 + (joinedAt 5 12 622).settings.settle ∧
      (joinedAt 5 12 622).cadence.coilChecked = false ∧
      (after (.coilCheck 40 1000) (joinedAt 5 12 621)).sampler = ⟨⟨false, 1⟩, ⟨false, 1⟩⟩ ∧
      (after (.coilCheck 41 999) (joinedAt 5 12 621)).sampler = ⟨⟨false, 0⟩, ⟨false, 0⟩⟩ ∧
      (after (.coilCheck 40 1000) { joinedAt 5 12 621 with sampler := ⟨⟨false, 1⟩, ⟨true, 2⟩⟩ }).sampler = ⟨⟨true, 0⟩, ⟨true, 0⟩⟩ ∧
      (after (.coilCheck 41 999) { joinedAt 5 12 621 with sampler := ⟨⟨true, 1⟩, ⟨true, 2⟩⟩ }).sampler = ⟨⟨true, 2⟩, ⟨false, 0⟩⟩ := by
  decide +kernel

theorem witness_RecordsFadeAndGo :
    (joinedAt 4 3 100).lane.passage ≠ .tagOnly ∧
      stampDiff (⟨1204, 3⟩ : Stamp) ⟨1205, 3⟩ = 25 ∧ stampDiff (⟨1204, 4⟩ : Stamp) ⟨1205, 3⟩ = 24 ∧
      stampDiff (⟨1201, 3⟩ : Stamp) ⟨1205, 3⟩ = 100 := by decide +kernel

/-- Tag-only working with one unissued record 25 frames unheard, heard more east than west. -/
def fading : State :=
  { joinedAt 4 3 0 with
    lane := ⟨true, ⟨true, false, 1500, true⟩, .reset, .tagOnly, none, 0⟩
    sightings := [⟨9, true, false, .live, ⟨1203, 0⟩, ⟨1204, 3⟩, 100, 9000, 4, 1, 9⟩] }

/-- The state with its partner not heard, or under a clash, and with other adjudications in its list. -/
def crowded (s : State) (east : Presence) (clash : Bool) (states : List AdjState) : State :=
  { s with
    neighbours := { s.neighbours with east := { s.neighbours.east with presence := east }, clash := clash }
    adj := ⟨states.zipIdx.map (fun x => { callA with callId := BitVec.ofNat 8 (100 + x.2), state := x.1 }), [], 18⟩ }

/-- The trigger called for, weighed at once, and with the list full of HOLDING and of COLLECTING adjudications. -/
theorem witness_FadeTriggerCallsPartner :
    (crowded fading .present false []).HasRoom 7 ∧ (crowded fading .absent false [.collecting, .holding, .holding, .holding]).HasRoom 7 ∧
      fading.lane.passage = .tagOnly ∧
      fading.startup.key ≠ .service ∧
      fading.sightings.filter (fun x => x.state == .live && 25 ≤ stampDiff x.lastStamp fading.stamp && 0 < x.reads &&
        (x.unissued || x.watched) && x.westSum ≤ x.eastSum) =
          [⟨9, true, false, .live, ⟨1203, 0⟩, ⟨1204, 3⟩, 100, 9000, 4, 1, 9⟩] ∧
      (crowded fading .present true []).neighbours.clash = true ∧ (crowded fading .present false []).neighbours.clash = false ∧
      (crowded fading .present false []).neighbours.east.westFault ≠ some true ∧
      (∀ b ∈ (crowded fading .absent false [.holding]).adj.list, b.candidates.length ≤ 24) ∧
      (after (.recordFade .none) (crowded fading .present false [])).line.queue.length = 1 ∧
      (after (.recordFade .none) (crowded fading .absent false [.holding])).adj.list.map Adjudication.callId = [100, 18] ∧
      (after (.recordFade .none) (crowded fading .absent false [.collecting, .holding, .holding, .holding])).adj.list.map
        Adjudication.callId = [100, 102, 103, 18] ∧
      (after (.recordFade .none) (crowded fading .present false [.collecting, .collecting, .collecting, .collecting])).adj.list.map
        Adjudication.callId = [100, 101, 102, 103] ∧
      (after (.recordFade .none) (crowded fading .present false [.collecting, .collecting, .collecting, .collecting])).alarm.latch.cls =
        .unissued ∧
      (after (.recordFade .none) (crowded fading .present true [])).line.queue = [] :=
  ⟨roomOf (by decide), roomOf (by decide), by decide +kernel⟩

/-- Two records that trigger at one frame start. -/
def fadingTwo : State :=
  { fading with sightings := fading.sightings ++ fading.sightings.map (fun r => { r with serial := 10 }) }

/-- With no record nothing happens; two give two CALLs, and with no partner two adjudications weighed at once. -/
theorem witness_FadeTriggers_several :
    fadingTwo.HasRoom 7 ∧ fadingTwo.lane.passage = .tagOnly ∧ fadingTwo.startup.key ≠ .service ∧
      after (.recordFade .none) { fading with sightings := [] } = { fading with sightings := [] } ∧
      (after (.recordFade .none) fadingTwo).line.queue.map Queued.notice =
        [.call 0 4 ⟨1203, 0⟩ ⟨1204, 3⟩, .call 1 4 ⟨1203, 0⟩ ⟨1204, 3⟩] ∧
      (after (.recordFade .none) (crowded fadingTwo .absent false [])).adj.nextCall = 20 :=
  ⟨roomOf (by decide), by decide +kernel⟩

/-- A table with one record just 750 frames old and one of 749, the lane's clear run at 249 or 250. -/
def staying (run : Nat) (busy : Option Bool) : State :=
  { joinedAt 2 3 0 with
    lane := ⟨true, .reset, .reset, .clear, none, run⟩
    neighbours := ⟨⟨.present, 0, busy, .noAlarm, false⟩, .reset, 0, false, false, 0⟩
    sightings := [⟨9, true, false, .live, ⟨1175, 3⟩, ⟨1205, 2⟩, 10, 90, 4, 1, 9⟩, ⟨10, true, false, .live, ⟨1175, 4⟩, ⟨1205, 2⟩, 10, 90, 4, 1, 9⟩] }

/-- Sixteen STRAY records of rising first stamps, the lowest serial the earliest, and one LIVE record to be marked. -/
def capped : State :=
  { staying 250 (some false) with
    sightings := recordOf 9 .live 3 3 :: (List.range 16).map (fun i => recordOf (BitVec.ofNat 32 (20 + i)) (.stray 1 2) i 3)
    cadence := { (staying 250 (some false)).cadence with superFrame := 1235 } }

/-- Both lane conditions failing and holding; and at the stray cap, the record marked, the record freed, and the table between. -/
theorem witness_StraysMarked :
    TableSound (staying 250 (some false)).sightings ∧ TableSound capped.sightings ∧
      TableSound (after .strayMark capped).sightings ∧
      ((staying 249 (some false)).ownsLane = true ∧ (staying 249 (some false)).lane.clearRun < 250) ∧
      (2 ≤ (staying 250 none).position ∧ (staying 250 none).neighbours.west.presence = .present ∧
        (staying 250 none).neighbours.west.laneBusy ≠ some false) ∧
      250 ≤ (staying 250 (some false)).lane.clearRun ∧ (staying 250 (some false)).neighbours.west.laneBusy = some false ∧
      (after .strayMark (staying 250 (some false))).sightings.map Record.isStray = [true, false] ∧
      recordOf 9 .live 3 3 ∈ capped.sightings ∧ strayCount capped.sightings = 16 ∧
      750 ≤ stampDiff (recordOf 9 .live 3 3).firstStamp capped.stamp ∧
      (∀ x ∈ capped.sightings, x ≠ recordOf 20 (.stray 1 2) 0 3 → x.isStray = true →
        stampDiff x.firstStamp capped.stamp < stampDiff (⟨1205, 0⟩ : Stamp) capped.stamp) ∧
      (after .strayMark capped).sightings =
        recordOf 9 (.stray 10 20) 3 3 :: (capped.sightings.drop 2) :=
  ⟨tableOf (by decide +kernel), tableOf (by decide +kernel), tableOf (by decide +kernel), by decide +kernel⟩

/-- Before the straps are read, on an end pedestal, with the key not read yet, read as it stands, and a second sample of SERVICE; both
inputs low are no position. -/
theorem witness_FilterTickReadsKey :
    (closing 3 17).lane.Sound ∧ LaneMonitor.reset.Sound ∧ listeningFour.clockRuns = true ∧
      (startingIn .straps).clockRuns = true ∧ (startingIn .straps).startup.straps = none ∧
      (startingIn .straps).startup.resumeTo = none ∧ (closing 3 17).endPedestal = false ∧
      ({ joinedAt 9 3 100 with startup := { (joinedAt 9 3 100).startup with straps := some ⟨9, true⟩ } } : State).endPedestal = true ∧
      reading.startup.state ≠ .listening ∧ reading.startup.state ≠ .joined ∧ reading.startup.straps ≠ none ∧
      listeningFour.startup.state = .listening ∧ (joinedAt 4 3 100).startup.state = .joined ∧
      (joinedAt 4 3 100).startup.keyStarted = true ∧ (joinedAt 4 3 100).startup.key = .run ∧ (joinedAt 4 3 100).startup.keyPending = none ∧
      (after (.filterTick false false true true ⟨.last, false⟩) { joinedAt 4 3 100 with
        startup := { (joinedAt 4 3 100).startup with keyStarted := false } }).startup.key = .run ∧
      (after (.filterTick false false false true ⟨.last, false⟩) { joinedAt 4 3 100 with
        startup := { (joinedAt 4 3 100).startup with keyPending := some .service } }).startup.key = .service ∧
      (after (.filterTick false false false false ⟨.last, false⟩) fading).lane =
        ⟨true, ⟨true, true, 1500, true⟩, .reset, .tagOnly, none, 0⟩ ∧
      (after (.filterTick false false false false ⟨.last, false⟩)
        (after (.filterTick false false false false ⟨.last, false⟩) fading)).lane.passage = .clear :=
  ⟨laneOf (by decide), laneOf (by decide), by decide +kernel⟩

theorem witness_PassagesCompleteByDirection :
    (closing 3 17).lane.Sound ∧ (closing 3 17).lane.started = true ∧
      ((closing 3 17).lane.tick false ⟨1206, 17⟩ false false).2.completed = some ⟨.outbound, ⟨1205, 6⟩, ⟨1206, 17⟩⟩ :=
  ⟨laneOf (by decide), by decide +kernel⟩

/-- The inbound clause: INNER broken and sampled clear once in IN_CLOSING. -/
def closingIn : State :=
  { closing 3 17 with lane := ⟨true, ⟨true, true, 3, false⟩, .reset, .inClosing, some ⟨1205, 6⟩, 0⟩ }

/-- A passage that spans both beams and clears them together, its start stamp later than the present frame. -/
def spanning : State :=
  { closing 3 17 with lane := ⟨true, ⟨true, true, 3, false⟩, ⟨true, true, 3, false⟩, .bothSpanned, some ⟨1206, 6⟩, 0⟩ }

/-- The three directions, each called for; under a clash and in SERVICE discarded; and with no partner weighed at once. -/
theorem witness_PassageCallsPartner :
    (closing 3 17).HasRoom 7 ∧ (closing 3 17).lane.Sound ∧ closingIn.lane.Sound ∧ spanning.lane.Sound ∧
      (closing 3 17).startup.state = .joined ∧ (closing 3 17).cadence.join = .joined ∧
      (closing 3 17).startup.straps.isSome = true ∧ (closing 3 17).endPedestal = false ∧
      (closing 3 17).startup.keyStarted = true ∧ (closing 3 17).lane.started = true ∧
      ((closing 3 17).lane.passage, false, false, Passage.clear, some Direction.outbound) ∈ passageMoves ∧
      (closingIn.lane.passage, false, false, Passage.clear, some Direction.inbound) ∈ passageMoves ∧
      (spanning.lane.passage, false, false, Passage.clear, some Direction.undirected) ∈ passageMoves ∧
      ((closing 3 17).lane.outer.broken = true → (closing 3 17).lane.outer.differ = true) ∧
      (closing 3 17).lane.startStamp = some ⟨1205, 6⟩ ∧ stampDiff ⟨1206, 6⟩ spanning.stamp < 0 ∧
      (closing 3 17).alarm.latch.clearPending = false ∧ (closing 3 17).line.dropped = [] ∧
      (closing 3 17).startup.key ≠ .service ∧ (closing 3 17).neighbours.clash = false ∧
      (∀ b ∈ (closing 3 17).adj.list, b.candidates.length ≤ 24) ∧
      (after (.filterTick false false false false ⟨.last, false⟩) spanning).line.queue.map Queued.notice =
        [.call 0 3 ⟨1204, 17⟩ ⟨1205, 17⟩] ∧
      (after (.filterTick false false false false ⟨.last, false⟩) (crowded spanning .present true [])).line.queue = [] ∧
      (after (.filterTick false false false true ⟨.last, false⟩)
        { spanning with startup := { spanning.startup with key := .service } }).line.queue = [] ∧
      (after (.filterTick false false false false ⟨.last, false⟩)
        { crowded spanning .absent false [] with sightings := fading.sightings.map (fun r => { r with lastStamp := ⟨1205, 0⟩ }) }).adj.list.map
          Adjudication.state = [.holding] :=
  ⟨roomOf (by decide), laneOf (by decide), laneOf (by decide), laneOf (by decide), by decide +kernel⟩

/-- A passage completes while the latch waits for the lane, with no partner, a record that is attributed, and the list full of
HOLDING adjudications, the oldest of which settles with a standing ALARM. -/
def settlingPassage : State :=
  { closing 3 17 with
    alarm := ⟨⟨.unissued, true, true⟩, [], 0⟩
    neighbours := { (closing 3 17).neighbours with east := ⟨.absent, 6, none⟩ }
    sightings := [⟨9, true, false, .live, ⟨1205, 6⟩, ⟨1205, 9⟩, 100, 9000, 4, 1, 9⟩]
    adj := ⟨[0, 1, 2, 3].map (fun i => { (contested.adj.list.headD callA) with callId := BitVec.ofNat 8 (100 + i), lane := 3 }), [], 18⟩ }

/-- R160, R166: the report before the delivery clears the latch, and the settlement raises it again; after it there is nothing left to
clear. The staff key into ACK stands where its place puts it. -/
theorem test_report_and_delivery :
    settlingPassage.HasRoom 8 ∧ settlingPassage.alarm.latch.clearPending = true ∧ settlingPassage.settings.latchMode = .clearing ∧
      settlingPassage.lane.Sound ∧ (∀ b ∈ settlingPassage.adj.list, b.candidates.length ≤ 24) ∧
      (after (.filterTick false false false false ⟨.last, true⟩) settlingPassage).line.queue.map Queued.notice =
        [.alarm 3 .noAlarm .cleared false, .verdict 18 3 0 true [⟨9, 252, .alarm⟩],
          .settlement 100 3 0 true [⟨0x0F3A6E15, .alarm⟩], .alarm 3 .unissued .raised false] ∧
      (after (.filterTick false false false false ⟨.last, false⟩) settlingPassage).line.queue.map Queued.notice =
        [.verdict 18 3 0 true [⟨9, 252, .alarm⟩], .settlement 100 3 0 true [⟨0x0F3A6E15, .alarm⟩],
          .alarm 3 .unissued .raised false] :=
  ⟨roomOf (by decide +kernel), by decide +kernel, by decide +kernel, laneOf (by decide +kernel), by decide +kernel⟩

/-- R163, R166: the notices offered in the six orders of key, report and delivery, by their codes (Table 6-6). -/
theorem test_key_between :
    [(KeyPlace.first, true), (.between, true), (.last, true), (.first, false), (.between, false), (.last, false)].map (fun x =>
      (after (.filterTick false false true false ⟨x.1, x.2⟩) { settlingPassage with
        startup := { settlingPassage.startup with keyPending := some .ack } }).line.queue.map (fun q => q.notice.code)) =
      [[8, 7, 5, 6, 7], [7, 8, 5, 6, 7], [7, 5, 6, 7, 7, 8], [8, 5, 6, 7], [5, 6, 7, 7, 8], [5, 6, 7, 7, 8]] := by decide +kernel

/-- The key's second sample of ACK. -/
def turning (position : Nat) : State :=
  { joinedAt position 3 100 with startup := { (joinedAt position 3 100).startup with keyPending := some .ack } }

/-- The key's second sample of ACK, at a pedestal with a latch and a passage state. -/
def turned (latch : Latch) (passage : Passage) : State :=
  { turning 3 with
    alarm := { (alarmed .clear).alarm with latch := latch }
    lane := if passage = .clear then (turning 3).lane else ⟨true, .reset, ⟨true, false, 1, false⟩, passage, some ⟨1205, 2⟩, 0⟩ }

/-- A latch that waits for its lane, with OUTER about to be filtered CLEAR. -/
def returning : State :=
  { alarmed .inOpening with
    alarm := ⟨⟨.unissued, true, true⟩, [], 0⟩, lane := ⟨true, .reset, ⟨true, true, 1, false⟩, .inOpening, some ⟨1205, 2⟩, 0⟩ }

/-- Positions 1 and 2; a latch cleared at once, made to wait, and left; and one that cleared with its lane. -/
theorem witness_KeyIntoAckOffersAck :
    (turning 2).HasRoom 2 ∧ (turned ⟨.watched, false, false⟩ .inOpening).HasRoom 2 ∧ returning.HasRoom 1 ∧
      (turning 2).lane.Sound ∧ (turned ⟨.watched, false, false⟩ .inOpening).lane.Sound ∧ returning.lane.Sound ∧
      (turning 2).startup.state = .joined ∧ (turning 2).startup.straps.isSome = true ∧ (turning 2).endPedestal = false ∧
      (turning 2).startup.keyStarted = true ∧ (turning 2).startup.key ≠ .ack ∧ (turning 2).startup.keyPending = some .ack ∧
      (turning 2).alarm.latch.cls = .noAlarm ∧ (turning 2).lane.started = true ∧ (turning 2).lane.passage ≠ .waitClear ∧
      (after (.filterTick false false true false ⟨.last, false⟩) (turning 2)).line.queue = [queued (.ack 1)] ∧
      (after (.filterTick false false true false ⟨.last, false⟩) (turning 1)).line.queue = [] ∧
      (turned ⟨.watched, false, false⟩ .clear).settings.latchMode = .clearing ∧
      (after (.filterTick false false true false ⟨.last, false⟩) (turned ⟨.watched, false, false⟩ .clear)).alarm.latch = .reset ∧
      (after (.filterTick false true true false ⟨.first, false⟩) (turned ⟨.watched, false, false⟩ .inOpening)).line.queue =
        [queued (.alarm 3 .watched .acknowledged true), queued (.ack 2)] ∧
      (after (.filterTick false true true false ⟨.first, false⟩) (turned ⟨.watched, true, true⟩ .inOpening)).line.queue =
        [queued (.ack 2)] ∧
      (returning.lane.outer.broken = true → returning.lane.outer.differ = true) ∧ returning.startup.key = .run ∧
      returning.lane.passage ∈ [Passage.waitClear, .tagOnly, .outOpening, .inOpening] ∧
      (after (.filterTick false false false false ⟨.last, false⟩) returning).line.queue = [queued (.alarm 3 .noAlarm .cleared false)] :=
  ⟨roomOf (by decide), roomOf (by decide), roomOf (by decide), laneOf (by decide), laneOf (by decide), laneOf (by decide),
    by decide +kernel⟩

/-- A beam broken for 1,500 frame starts and one for 1,499. -/
theorem witness_StuckBeamsRaised :
    (after .beamStuck { joinedAt 4 3 100 with
      lane := ⟨true, .reset, ⟨true, false, 1500, false⟩, .inOpening, some ⟨1205, 0⟩, 0⟩ }).lane.outer.stuck = true ∧
    (after .beamStuck { joinedAt 4 3 100 with
      lane := ⟨true, .reset, ⟨true, false, 1499, false⟩, .inOpening, some ⟨1205, 0⟩, 0⟩ }).lane.outer.stuck = false ∧
    (after .beamStuck fading).lane = fading.lane ∧ fading.lane.passage = .tagOnly ∧ 1500 ≤ fading.lane.inner.duration := by
  decide +kernel

theorem witness_StuckBeamsRaised_sound : fading.lane.Sound := laneOf (by decide)

/-- Another station's break of 20 bit times, and the part's own, whose line returns high at the last bit time and too late. -/
theorem witness_BreaksRecognized :
    (joinedAt 4 3 100).clockRuns = true ∧ (joinedAt 4 3 100).line.rx ≠ .off ∧ (joinedAt 4 3 100).line.tx ≠ .brk ∧
      breaking.clockRuns = true ∧ breaking.line.rx ≠ .off ∧ breaking.line.tx = .brk ∧ breaking.line.sending = [] ∧
      breaking.line.queue = [] ++ ⟨.cadence 1205 0 false false, 0, true, false⟩ :: [] ∧
      breaking.cadence.clock + 32 * 2048 ≤ breaking.line.txFrom + 32 * 2048 ∧
      breaking.line.txFrom + 32 * 2048 < breaking.cadence.clock + 33 * 2048 ∧
      (after (.breakRecognized ⟨20, 20⟩) (joinedAt 4 3 100)).line.quietFrom = some (100000 * 15625 + 20 * 2048) := by decide +kernel

/-- A lead character, one while HUNTING, one into an assembly, one after a bad length; a break paired before; and the CADENCE's own lead. -/
theorem witness_CharactersAssembled :
    (joinedAt 4 3 100).clockRuns = true ∧ (joinedAt 4 3 100).line.rx = .hunting ∧
      (∀ i, i < 10 → (levelsOf 0x84 true).getLsbD i = (characterLevels (0x84, true)).getD i true) ∧
      (levelsOf 0 false).getLsbD 0 = false ∧ (1#10).getLsbD 0 = true ∧
      (hearing (joinedAt 4 3 100) 3 (.ack 3)).line.rx ≠ .off ∧ badLength [0x84, 0x01] = false ∧
      assemblyComplete [0x84, 0x01] = false ∧ badLength [0x84, 0x02] = true ∧
      (after (.characterReceived 0 (levelsOf 0x12 true) true) (brokenAt (joinedAt 3 3 100) ⟨7, 0, 0, true⟩)).cadence.pendingBreak = none ∧
      (after (.characterReceived 13 (levelsOf 0x14 true) true) (after (.breakRecognized ⟨0, 24⟩) breaking)).line.rx =
        .assembling [0x14] true := by
  decide +kernel

theorem witness_AssembliesDiscarded :
    (joinedAt 4 3 100).clockRuns = true ∧ (joinedAt 4 3 100).line.rx ≠ .off ∧ assemblyComplete [0x84, 0x01] = false ∧
      (0#11).getLsbD 0 = false ∧ (0#11).getLsbD 10 = false ∧ badLength [0x84, 0x02] = true ∧
      ((hearing (joinedAt 4 3 100) 3 (.ack 3)).readEdges 11 1).line.lowFrom = none ∧ (joinedAt 4 3 100).line.tx = .waiting ∧
      ((edged [⟨100000 * 15625 - 1, false⟩] (hearing (joinedAt 4 3 100) 3 (.ack 3))).readEdges 11 1).line.lowFrom ≠ none ∧
      assemblyComplete [0x84, 0x01, 0x03, 0xBD] = true ∧ assemblyNotice [0x84, 0x01, 0x03, 0xBD] = none ∧
      ({ joinedAt 4 3 100 with line := { (joinedAt 4 3 100).line with quietFrom := some 9 } } : State).line.quietFrom = some 9 := by
  decide +kernel

theorem witness_NoticeBegins :
    (turning 2).clockRuns = true ∧ (turning 2).readEdges 16 2048 = turning 2 ∧ (turning 2).line.tx = .waiting ∧
      (turning 2).line.quietFrom = none ∧ (turning 2).line.lowFrom = none ∧ (turning 2).cadence.mark ≠ .pending ∧
      (turning 2).position = 2 ∧ (turning 2).line.backoff = false ∧
      ((edged [⟨100000 * 15625 - 2048, false⟩] (turning 2)).readEdges 16 2048).line.lowFrom ≠ none ∧
      (ready [(16 * 19 + 1, false)]).readEdges 20 2048 = ready [(16 * 19 + 1, false)] ∧
      ∃ q ∈ (after (.filterTick false false true false ⟨.last, false⟩) (turning 2)).line.queue, q.notice.priority ≠ 1 := by
  decide +kernel

/-- The clauses: the seventh failed attempt, a withdrawn notice, a CADENCE, and at the eighth a final VERDICT part, an ACK, a CALL whose
adjudication is weighed and a CALL of no adjudication. -/
theorem witness_CollisionsCounted :
    (sendingNow (joinedAt 4 3 100) ⟨.ack 3, 6, false, false⟩).clockRuns = true ∧
      (sendingNow (joinedAt 4 3 100) ⟨.ack 3, 6, false, false⟩).line.tx = .sending ∧
      (sendingNow (joinedAt 4 3 100) ⟨.ack 3, 6, false, false⟩).line.sentLevel 9 = some true ∧
      (sendingNow (joinedAt 4 3 100) ⟨.ack 3, 6, false, false⟩).line.dropped = [] ∧
      (sendingNow (joinedAt 4 3 100) ⟨.ack 3, 6, false, false⟩).line.queue = [] ++ ⟨.ack 3, 6, true, false⟩ :: [] ∧
      (after (.breakRecognized ⟨0, 24⟩) breaking).line.sentLevel 9 = some true ∧
      (after (.collision 9) (after (.breakRecognized ⟨0, 24⟩) breaking)).cadence.mark = .absent ∧
      (after (.collision 9) (sendingNow (joinedAt 4 3 100) ⟨.ack 3, 2, false, true⟩)).line.queue = [] ∧
      (after (.collision 9) (sendingNow (joinedAt 4 3 100) ⟨.cadence 1205 0 false false, 0, false, false⟩)).line.queue = [] ∧
      (after (.collision 9) (sendingNow contested ⟨.verdict 92 4 0 true [], 7, false, false⟩)).line.queue = [] ∧
      (after (.collision 9) (sendingNow (joinedAt 4 3 100) ⟨.ack 3, 7, false, false⟩)).line.queue = [] ∧
      callA ∈ (collecting 3).adj.list ∧ callA.callId = 17 ∧ callA.state = .collecting ∧
      (∀ x ∈ (collecting 3).adj.list, x.callId = 17 → x = callA) ∧ callA.candidates.length ≤ 24 ∧
      (after (.collision 9) (sendingNow (collecting 3) ⟨.call 17 3 ⟨1204, 6⟩ ⟨1205, 3⟩, 7, false, false⟩)).line.queue.map Queued.notice =
        [.verdict 17 3 0 true [⟨0x0A13C2F7, 221, .alarm⟩]] ∧
      (after (.collision 9) (sendingNow (joinedAt 3 3 100) ⟨.call 17 3 ⟨1204, 6⟩ ⟨1205, 3⟩, 7, false, false⟩)).line.queue = [] := by
  decide +kernel

/-- R130: a CALL dropped while an older part of its call id is held is weighed with NONE. -/
theorem test_call_dropped :
    (after (.collision 9) (sendingNow { joinedAt 3 3 100 with adj := ⟨[{ callA with evidence := .incomplete, parts := [0] }], [], 18⟩ }
      ⟨.call 17 3 ⟨1204, 6⟩ ⟨1205, 3⟩, 7, false, false⟩)).adj.list.map (fun a => (a.evidence, a.threshold, a.state)) =
      [(.nothing, some .solo, .holding)] := by decide +kernel

/-- A CALL, a final VERDICT part, one that is not final, and a CADENCE sent. -/
theorem witness_NoticesSent :
    (sendingNow (collecting 3) (queued (.call 17 3 ⟨1204, 6⟩ ⟨1205, 3⟩))).clockRuns = true ∧
      (sendingNow (collecting 3) (queued (.call 17 3 ⟨1204, 6⟩ ⟨1205, 3⟩))).line.tx = .sending ∧
      (sendingNow (collecting 3) (queued (.call 17 3 ⟨1204, 6⟩ ⟨1205, 3⟩))).line.dropped = [] ∧
      (sendingNow (collecting 3) (queued (.call 17 3 ⟨1204, 6⟩ ⟨1205, 3⟩))).line.queue =
        [] ++ ⟨.call 17 3 ⟨1204, 6⟩ ⟨1205, 3⟩, 0, true, false⟩ :: [] ∧
      (after .noticeSent (sendingNow (collecting 3) (queued (.call 17 3 ⟨1204, 6⟩ ⟨1205, 3⟩)))).adj.list.map Adjudication.deadline =
        [some 5] ∧
      (after .noticeSent (sendingNow { contested with
        adj := { contested.adj with list := contested.adj.list.map (fun a => { a with hold := none }) } }
        (queued (.verdict 92 4 0 true [])))).adj.list.map Adjudication.hold = [some 3] ∧
      (after .noticeSent (sendingNow contested (queued (.verdict 92 4 0 false [])))).adj = contested.adj ∧
      (after (.breakRecognized ⟨0, 24⟩) breaking).line.tx = .brk ∧ (after (.breakRecognized ⟨0, 24⟩) breaking).line.sending ≠ [] ∧
      (after .noticeSent (after (.breakRecognized ⟨0, 24⟩) breaking)).cadence.pendingBreak = none := by decide +kernel

theorem witness_FullQueueDropsLowest :
    12 ≤ ((List.range 12).map (fun i => queued (.ack (BitVec.ofNat 8 (1 + i % 8))))).length ∧ (queued busyStatus).inTransmission = false ∧
      (offerTo ((List.range 12).map (fun i => queued (.ack (BitVec.ofNat 8 (1 + i % 8))))) (queued busyStatus)).2 = some busyStatus := by
  decide +kernel

theorem witness_PartsCutInOrder : 0 < 4 ∧ (numberParts (partsOf 4 (List.range 9))).map (fun x => x.2.2.length) = [4, 4, 1] := by
  decide +kernel

/-- LISTENING after a hold with super-frame 1,204 kept and a claim heard, and a CADENCE of 1,205. -/
def listeningKept (n : BitVec 16) : State :=
  brokenAt (hearing { listeningFour with
    cadence := { listeningFour.cadence with superFrame := n }
    adj := ⟨[], [⟨7, 3, 200, 1, 10⟩], 0⟩ } 1 (.cadence 1205 0 false false)) ⟨1990 * 15625, 0, 0, true⟩

/-- A number that is not the one held, and one that is. -/
theorem witness_CadenceAdoptedWhileListening :
    (listeningKept 1204).incoming = some (1, .cadence 1205 0 false false) ∧
      (listeningKept 1204).cadence.join = .listening ∧ (listeningKept 1204).startup.state = .listening ∧
      (listeningKept 1204).cadence.pendingBreak = some ⟨1990 * 15625, 0, 0, true⟩ ∧
      (listeningKept 1204).field.running = false ∧ (listeningKept 1204).field.request = none ∧
      (after .receiveCadence (listeningKept 1204)).adj.claims = [] ∧
      (after .receiveCadence (listeningKept 1205)).adj.claims = [⟨7, 3, 200, 1, 9⟩] := by decide +kernel

/-- A JOINED pedestal that hears CADENCE `n` from position 1, its break recognized at a tick position of super-frame 1,205. -/
def judging (index position : Nat) (n : BitVec 16) : State :=
  hearing (brokenAt (joinedAt 4 index 20) ⟨99990 * 15625, position, 1205, true⟩) 1 (.cadence n 0 false false)

/-- D at 0 and at 512, with N equal to M, 32,767 ahead of it, and behind it. -/
theorem witness_CadenceJudged :
    (judging 0 3 1205).incoming = some (1, .cadence 1205 0 false false) ∧ (judging 0 3 1205).position = 4 ∧
      (judging 0 3 1205).cadence.join = .joined ∧ (judging 0 3 1205).cadence.pendingBreak = some ⟨99990 * 15625, 3, 1205, true⟩ ∧
      (judging 0 3 1205).line.dropped = [] ∧ (3 : Int) - (0 + 3) = 0 ∧ (515 : Int) - (0 + 3) = 512 ∧
      ((33972 : BitVec 16) - 1205).toNat = 32767 ∧ ((1204 : BitVec 16) - 1205).toNat = 65535 ∧
      (after .receiveCadence (judging 0 515 33972)).cadence.superFrame = 33972 ∧
      (after .receiveCadence (judging 0 515 1204)).cadence.superFrame = 1205 := by decide +kernel

/-- D at −1 and −3 in frame 0, at −512 across the end of frame 24 and in a frame 0 begun since, and at 513 and −513. -/
theorem witness_CadenceMovesPhase :
    (judging 0 2 1205).startup.state = .joined ∧ (2 : Int) - (0 + 3) = -1 ∧
      (after .receiveCadence (judging 0 2 1205)).cadence.offset = 21 ∧
      (15875 : Int) - (0 + 3) - 16384 = -512 ∧ (after .receiveCadence (judging 24 15875 1206)).stamp = ⟨1206, 0⟩ ∧
      (516 : Int) - (0 + 3) = 513 ∧ (after .receiveCadence (judging 0 516 1205)).cadence.offset = 13 ∧
      (15874 : Int) - (0 + 3) - 16384 = -513 ∧ (after .receiveCadence (judging 24 15874 1206)).cadence.offset = 13 ∧
      (after .receiveCadence (judging 0 15875 1206)).cadence.frameIdx = 0 ∧
      (after .receiveCadence { judging 0 15875 1206 with
        cadence := { (judging 0 15875 1206).cadence with offset := 8 } }).cadence.offset = 13 ∧
      (after .receiveCadence { judging 0 15875 1206 with
        cadence := { (judging 0 15875 1206).cadence with offset := 8 } }).cadence.skips = [(8, 5)] := by
  decide +kernel

/-- The state with call 17 open and its CALL and VERDICT queued, with two EVIDENCE parts, one of them in transmission, a VERDICT of
another call and an ACK. -/
def answering (s : State) : State :=
  { s with
    adj := { s.adj with list := [callA] }
    line := { s.line with queue := [queued (.call 17 3 ⟨1204, 6⟩ ⟨1205, 3⟩), queued (.verdict 17 3 0 true []), ⟨.evidence 9 0 false [], 1, true, false⟩,
      queued (.evidence 9 1 true []), queued (.verdict 16 3 0 true []), queued (.ack 3)] } }

/-- R109, R132, R149: a number adopted while LISTENING, with the phase kept, moved and begun again, and a clash newly set, leave the part
in transmission, marked, and the two notices that are neither; the number held, one behind it, and a clash that stands leave the queue. -/
theorem witness_CadenceAdopted_queue :
    (∀ s ∈ [listeningKept 1204, judging 0 3 1206, judging 0 2 1206, judging 24 15875 1207, judging 0 516 1206,
        hearing (listeningKept 1204) 4 (.cadence 1205 0 false false), hearing (judging 0 3 1205) 4 (.cadence 1205 0 false false)],
      (answering s).line.dropped = [] ∧ 1 ≤ s.position ∧ (after .receiveCadence (answering s)).adj.list = [] ∧
        (after .receiveCadence (answering s)).line.queue =
          [⟨.evidence 9 0 false [], 1, true, true⟩, queued (.verdict 16 3 0 true []), queued (.ack 3)]) ∧
      (∀ s ∈ [listeningKept 1205, judging 0 3 1205, judging 0 3 1204, judging 24 15875 1206,
          { hearing (judging 0 3 1205) 4 (.cadence 1205 0 false false) with neighbours := (due 0 3).neighbours },
          { hearing (judging 0 3 1204) 4 (.cadence 1204 0 false false) with neighbours := (due 0 3).neighbours }],
        (after .receiveCadence (answering s)).line.queue = (answering s).line.queue) ∧
      (after .receiveCadence (answering { hearing (judging 0 3 1206) 4 (.cadence 1206 0 false false) with
        neighbours := (due 0 3).neighbours })).line.queue.length = 3 := by decide +kernel

/-- A notice of each kind from the west neighbour, the east one and the desk, each valid and heard. -/
theorem witness_NeighboursHeard :
    ∀ p ∈ [0, 3, 5], ∀ n ∈ [busyStatus, .alarm 3 .watched .raised false, .journal 31 none, .call 9 3 ⟨1, 2⟩ ⟨1, 3⟩, .evidence 9 0 true [],
        .verdict 9 3 0 true [⟨7, 200, .alarm⟩], .settlement 9 3 0 true [⟨7, .carriedIn⟩], .ack 4, .journalCall 4 0,
        .cadence 1205 0 false false],
      (hearing (due 6 3) p n).incoming = some (p, n) ∧ p ≠ (due 6 3).position ∧
        ((after (receiveOf n) (hearing (due 6 3) p n)).neighbours.lineSilence,
          (after (receiveOf n) (hearing (due 6 3) p n)).neighbours.west.silence,
          (after (receiveOf n) (hearing (due 6 3) p n)).neighbours.east.silence,
          (after (receiveOf n) (hearing (due 6 3) p n)).neighbours.clashCount) =
        (0, if p = 3 then 0 else 6, if p = 5 then 0 else 6, 3) := by decide +kernel

/-- A CADENCE of position 5 that begins a new frame 0, while LISTENING and across the end of frame 24, and one that does not: with its
break unpaired, behind, with the phase kept and within frame 0. -/
theorem witness_NeighboursHeard_cadence :
    (∀ s ∈ [hearing (listeningKept 1204) 5 (.cadence 1205 0 false false), hearing (judging 24 15875 1206) 5 (.cadence 1206 0 false false),
        hearing (judging 0 516 1205) 5 (.cadence 1205 0 false false)],
      s.incoming.map Prod.fst = some 5 ∧ (after .receiveCadence s).neighbours = ⟨⟨.present, 1, some false, .noAlarm, false⟩,
        ⟨.present, 1, some false⟩, 1, false, false, 0⟩) ∧
      ∀ s ∈ [brokenAt (hearing (judging 0 3 1205) 5 (.cadence 1205 0 false false)) ⟨0, 2, 1205, false⟩,
          hearing (judging 24 15875 1205) 5 (.cadence 1205 0 false false), hearing (judging 0 3 1205) 5 (.cadence 1205 0 false false),
          hearing (judging 0 2 1205) 5 (.cadence 1205 0 false false)],
        s.incoming.map Prod.fst = some 5 ∧ (after .receiveCadence s).neighbours = ⟨⟨.present, 0, some false, .noAlarm, false⟩,
          ⟨.present, 0, some false⟩, 0, false, false, 0⟩ := by decide +kernel

/-- Each kind under the own position: newly in clash, and in clash already. -/
theorem witness_ClashTriggered :
    (hearing contested 4 busyStatus).incoming = some ((hearing contested 4 busyStatus).position, busyStatus) ∧
      (hearing contested 4 busyStatus).neighbours.clash = false ∧
      (hearing (due 0 3) 4 (.journal 0 none)).incoming = some ((due 0 3).position, .journal 0 none) ∧
      (hearing (due 0 3) 4 (.journal 0 none)).neighbours.clash = true ∧ (due 0 3).line.tx ≠ .off ∧
      (∀ n ∈ [Notice.call 9 4 ⟨1, 2⟩ ⟨1, 3⟩, .evidence 9 0 true [], .verdict 9 4 0 true [⟨7, 200, .alarm⟩],
        .settlement 9 4 0 true [⟨7, .carriedIn⟩], .alarm 4 .watched .raised false, .ack 4, .journalCall 4 0,
        .journalCall 5 0, .cadence 1205 0 false false], (hearing contested 4 n).incoming = some (4, n)) ∧
      (after .receiveVerdict (hearing contested 4 (.verdict 9 4 0 true [⟨7, 200, .alarm⟩]))).adj =
        ⟨[], [⟨7, 4, 200, 9, 10⟩], 93⟩ ∧
      (after .receiveCall (hearing contested 4 (.call 9 4 ⟨1, 2⟩ ⟨1, 3⟩))).line.queue = [] ∧
      (after .receiveJournalCall (hearing contested 4 (.journalCall 4 0))).line.queue = [queued (.journal 0 none)] ∧
      (after .receiveJournalCall (hearing (alarmed .clear) 3 (.journalCall 3 255))).alarm.cursor = 1 ∧
      (hearing (listeningKept 1204) 4 (.cadence 1205 0 false false)).incoming = some (4, .cadence 1205 0 false false) ∧
      (∀ x ∈ [(hearing (listeningKept 1204) 4 (.cadence 1205 0 false false), 1, 1205, 13),
          (hearing (judging 0 3 1204) 4 (.cadence 1204 0 false false), 0, 1205, 20),
          (hearing (judging 0 515 1206) 4 (.cadence 1206 0 false false), 0, 1206, 20),
          (hearing (judging 0 2 1205) 4 (.cadence 1205 0 false false), 0, 1205, 21),
          (hearing (judging 24 15875 1206) 4 (.cadence 1206 0 false false), 1, 1206, 13)],
        ((after .receiveCadence x.1).neighbours.clashCount, (after .receiveCadence x.1).cadence.superFrame,
          (after .receiveCadence x.1).cadence.offset) = x.2) ∧
      (after .receiveCadence (hearing (judging 0 516 1205) 4 (.cadence 1205 0 false false))).neighbours.clashCount = 1 ∧
      (after .receiveCadence (hearing contested 4 (.cadence 1205 0 false false))).neighbours.clashCount = 0 := by decide +kernel

theorem witness_CallsAnswered :
    (hearing (joinedAt 4 3 100) 3 (.call 17 3 ⟨1204, 20⟩ ⟨1205, 3⟩)).HasRoom 6 ∧
      (hearing (joinedAt 4 3 100) 3 (.call 17 3 ⟨1204, 20⟩ ⟨1205, 3⟩)).incoming = some (3, .call 17 3 ⟨1204, 20⟩ ⟨1205, 3⟩) ∧
      (joinedAt 4 3 100).cadence.join = .joined ∧ (joinedAt 4 3 100).neighbours.clash = false ∧
      (hearing (joinedAt 4 3 100) 2 (.call 17 3 ⟨1204, 20⟩ ⟨1205, 3⟩)).incoming = some (2, .call 17 3 ⟨1204, 20⟩ ⟨1205, 3⟩) :=
  ⟨roomOf (by decide), by decide +kernel⟩

/-- Twenty-four candidates of one toward-sum, and the one of the highest serial. -/
def fullCandidates : List Candidate :=
  (List.range 24).map (fun i => { bookA with serial := BitVec.ofNat 32 (i + 1), ownEast := 50 })

/-- The candidate to go first of those. -/
def bookB : Candidate := { bookA with serial := 24, ownEast := 50 }

/-- A final and an unfinished part for call 17, and a deadline that has reached 0; a 25th serial; and the records kept of equals. -/
theorem witness_EvidenceAndDeadlineWeigh :
    fullCandidates.Pairwise (fun b c => b.serial ≠ c.serial) ∧
      (fullTable fun _ => .live).Pairwise (fun a b => a.serial.toNat < b.serial.toNat) ∧
      (∀ c ∈ fullCandidates, c.serial ≠ 99) ∧ 24 ≤ fullCandidates.length ∧ bookB ∈ fullCandidates ∧
      (∀ c ∈ fullCandidates, c ≠ bookB → c.toward = 50 ∧ c.serial.toNat < bookB.serial.toNat) ∧
      mergeEntry fullCandidates ⟨99, true, false, 50, 0, 2⟩ = fullCandidates ∧
      (mergeEntry fullCandidates ⟨99, true, false, 51, 0, 2⟩).map Candidate.serial =
        (fullCandidates.take 23).map Candidate.serial ++ [99] ∧
      (keepLargest Record.eastSum 2 (fullTable fun _ => .live)).map Record.serial = [1, 2] ∧
    (hearing (collecting 3) 4 (.evidence 17 0 true [])).HasRoom 3 ∧ (collecting 0).HasRoom 3 ∧
      (hearing (collecting 3) 4 (.evidence 17 0 true [])).incoming = some ((collecting 3).position + 1, .evidence 17 0 true []) ∧
      (hearing (collecting 3) 4 (.evidence 17 0 false [])).incoming = some ((collecting 3).position + 1, .evidence 17 0 false []) ∧
      (collecting 3).adj.list = [] ++ { callA with deadline := some 3 } :: [] ∧ callA.callId = 17 ∧ callA.state = .collecting ∧
      (some 3 : Option Nat) ≠ some 0 ∧ (0 : BitVec 4) ∉ callA.parts ∧ callA.candidates.length ≤ 24 ∧
      (collecting 0).adj.list.filter (fun x => x.state == .collecting && x.deadline == some 0) = [{ callA with deadline := some 0 }] ∧
      (∀ x ∈ (collecting 0).adj.list, x.callId = 17 → x = { callA with deadline := some 0 }) :=
  ⟨by decide +kernel, by decide +kernel, by decide +kernel, by decide +kernel, by decide +kernel, by decide +kernel,
    by decide +kernel, by decide +kernel, by decide +kernel, roomOf (by decide), roomOf (by decide), by decide +kernel⟩

/-- Two deadlines at one frame start. -/
def collectingTwo : State :=
  { joinedAt 3 3 100 with
    adj := ⟨[{ callA with deadline := some 0 }, { callA with callId := 18, deadline := some 0, candidates := [] }], [], 19⟩ }

/-- EVIDENCE from another station, for an unknown call and for a part that is held; none, and two deadlines. -/
theorem witness_EvidenceIgnored :
    (hearing (collecting 3) 5 (.evidence 17 0 true [])).incoming = some (5, .evidence 17 0 true []) ∧ (collecting 3).position = 3 ∧
      (∀ x ∈ (collecting 3).adj.list, x.callId ≠ 9) ∧
      (after .receiveEvidence (hearing (collecting 3) 4 (.evidence 9 0 true []))).adj = (collecting 3).adj ∧
      (after .receiveEvidence (hearing (collecting 3) 5 (.evidence 17 0 true []))).adj = (collecting 3).adj ∧
      after (.evidenceDeadline .none) (collecting 3) = collecting 3 ∧
      collectingTwo.HasRoom 3 ∧ collectingTwo.adj.list.Pairwise (fun x y => x.callId ≠ y.callId) ∧
      (after (.evidenceDeadline .none) collectingTwo).adj.list.map Adjudication.callId = [17] :=
  ⟨by decide +kernel, by decide +kernel, by decide +kernel, by decide +kernel, by decide +kernel, by decide +kernel,
    roomOf (by decide), by decide +kernel⟩

/-- Each kind is reached: PASS, CARRIED_IN, TURNBACK, REPEAT, ALARM, and REPEAT after another HOLDING adjudication's ALARM. -/
theorem witness_WeighingRule :
    ((joinedAt 3 3 100).scales.weighOne callA { bookA with unissued := false }).kind = some .pass ∧
      ((joinedAt 3 3 100).scales.weighOne { callA with direction := .inbound } bookA).kind = some .carriedIn ∧
      ({ joinedAt 3 3 100 with carried := [⟨0x0A13C2F7, 9⟩] }.scales.weighOne callA bookA).kind = some .turnback ∧
      ({ joinedAt 3 3 100 with alarm := ⟨.reset, [⟨0x0A13C2F7, 3, .alarm, .unissued, ⟨1185, 4⟩, 499, false⟩], 0⟩ }.scales.weighOne
        callA bookA).kind = some .repeated ∧
      ({ joinedAt 3 3 100 with alarm := ⟨.reset, [⟨0x0A13C2F7, 3, .alarm, .unissued, ⟨1185, 3⟩, 500, false⟩], 0⟩ }.scales.weighOne
        callA bookA).kind = some .alarm ∧
      (({ contested with adj := { contested.adj with list := contested.adj.list.map (fun a => { a with
        candidates := a.candidates.map (fun c => { c with serial := 0x0A13C2F7 }) }) } } : State).scales.weighOne callA bookA).kind =
        some .repeated ∧
      callA.callId ≠ 92 := by decide +kernel

/-- Thirty-two claims with the same frames left, of rising serials. -/
def fullClaims : List Claim := (List.range 32).map (fun i => ⟨BitVec.ofNat 32 (i + 1), 3, 200, 1, 5⟩)

/-- Two entries; a new claim, one that is refreshed, and one at 32; a lane above and a lane below at equal shares. -/
theorem witness_VerdictsHeard :
    (hearing contested 3 (.verdict 17 3 0 true [⟨0x0F3A6E15, 202, .alarm⟩, ⟨8, 9, .pass⟩])).incoming =
        some (3, .verdict 17 3 0 true [⟨0x0F3A6E15, 202, .alarm⟩, ⟨8, 9, .pass⟩]) ∧
      contested.position = 4 ∧
      (after .receiveVerdict (hearing contested 3 (.verdict 17 3 0 true [⟨0x0F3A6E15, 202, .alarm⟩, ⟨8, 9, .pass⟩]))).adj.claims =
        [⟨0x0F3A6E15, 3, 202, 17, 10⟩, ⟨8, 3, 9, 17, 10⟩] ∧
      (∃ k ∈ (due 0 0).adj.claims, k.serial = 7 ∧ k.lane = 3) ∧
      fullClaims.Pairwise (fun a b => ¬(a.serial = b.serial ∧ a.lane = b.lane)) ∧ 32 ≤ fullClaims.length ∧
      (∀ k ∈ fullClaims, k ≠ ⟨1, 3, 200, 1, 5⟩ → k.remaining = 5 ∧ (1 : Serial).toNat < k.serial.toNat) ∧
      addClaim ⟨99, 4, 7, 2, 10⟩ fullClaims = fullClaims.drop 1 ++ [⟨99, 4, 7, 2, 10⟩] ∧
      rivalWins 4 182 3 182 = true ∧ rivalWins 3 182 4 182 = false := by
  decide +kernel

/-- Settled with one standing ALARM, with that one yielded, and on latches that are set. -/
theorem witness_HoldsSettle :
    settling.HasRoom 4 ∧ (∀ a ∈ settling.adj.list, a.candidates.length ≤ 24) ∧
      settling.adj.list.filter (fun x => x.state == .holding && x.hold == some 0) = settling.adj.list ∧
      settling.adj.list.length = 1 ∧ settling.alarm.latch.cls = .noAlarm ∧
      (after (.holdExpiry .none) { settling with adj := { settling.adj with list := settling.adj.list.map (fun a =>
        { a with candidates := a.candidates.map (fun c => { c with yielded := true }) }) } }).alarm.latch = .reset ∧
      (after (.holdExpiry .none) { settling with alarm := ⟨⟨.watched, true, true⟩, [], 0⟩ }).line.queue.map Queued.notice =
        [.settlement 92 4 0 true [⟨0x0F3A6E15, .alarm⟩], .alarm 4 .watched .raised false] ∧
      (after (.holdExpiry .none) { settling with
        alarm := ⟨⟨.unissued, true, true⟩, [], 0⟩
        adj := { settling.adj with list := settling.adj.list.map (fun a =>
          { a with candidates := a.candidates.map (fun c => { c with watched := true }) }) } }).line.queue.map Queued.notice =
        [.settlement 92 4 0 true [⟨0x0F3A6E15, .alarm⟩], .alarm 4 .watched .classRaised false] ∧
      settling.alarm.journal.length ≤ 32 :=
  ⟨roomOf (by decide), by decide +kernel⟩

/-- Two holds that are over at one frame start. -/
def settlingTwo : State :=
  { settling with adj := { settling.adj with
    list := settling.adj.list ++ settling.adj.list.map (fun a => { a with callId := 93 }) } }

theorem witness_HoldsSettle_several :
    settlingTwo.HasRoom 4 ∧ settlingTwo.adj.list.Pairwise (fun x y => x.callId ≠ y.callId) ∧
      settlingTwo.adj.list.filter (fun x => x.state == .holding && x.hold == some 0) = settlingTwo.adj.list ∧
      (after (.holdExpiry .none) settlingTwo).adj.list = [] ∧ (after (.holdExpiry .none) settlingTwo).line.queue.length = 4 ∧
      after (.holdExpiry .none) contested = contested :=
  ⟨roomOf (by decide), by decide +kernel⟩

/-- An entry restored, one added, one removed, and one that takes the place of the lowest of 32 equal graces. -/
theorem witness_SettlementsHeard :
    (hearing (joinedAt 5 3 100) 2 (.settlement 40 2 0 true [⟨7, .carriedIn⟩])).incoming = some (2, .settlement 40 2 0 true [⟨7, .carriedIn⟩]) ∧
      ((List.range 32).map (fun i => (⟨BitVec.ofNat 32 i, 9⟩ : CarriedEntry))).Pairwise (fun a b => a.serial ≠ b.serial) ∧
      (∀ x ∈ (List.range 32).map (fun i => (⟨BitVec.ofNat 32 i, 9⟩ : CarriedEntry)), x ≠ ⟨0, 9⟩ →
        (9 < x.grace ∨ (9 = x.grace ∧ (0 : Serial).toNat < x.serial.toNat))) ∧
      (∀ x ∈ (List.range 32).map (fun i => (⟨BitVec.ofNat 32 i, 9⟩ : CarriedEntry)), x.serial ≠ 99) ∧
      applySettled 6000 [⟨7, 1⟩] ⟨7, .carriedIn⟩ = [⟨7, 6000⟩] := by decide +kernel

/-- From the partner with the lane busy, from the desk with it CLEAR, from another station, and with nothing set. -/
theorem witness_AcksApplied :
    (hearing (alarmed .inOpening) 4 (.ack 3)).HasRoom 1 ∧ (hearing (alarmed .inOpening) 4 (.ack 3)).incoming = some (4, .ack 3) ∧
      (hearing (alarmed .clear) 0 (.ack 3)).incoming = some (0, .ack 3) ∧ (hearing (alarmed .clear) 5 (.ack 3)).incoming = some (5, .ack 3) ∧
      (alarmed .clear).ownsLane = true ∧ (alarmed .clear).alarm.latch.cls ≠ .noAlarm ∧ (alarmed .clear).settings.latchMode = .clearing ∧
      (alarmed .clear).lane.passage = .clear ∧ (alarmed .inOpening).lane.passage ≠ .clear ∧
      (joinedAt 3 3 100).alarm.latch.cls = .noAlarm :=
  ⟨roomOf (by decide), by decide +kernel⟩

/-- The entry at the cursor, no entry at index 31, and a call for another position. -/
theorem witness_JournalCallsAnswered :
    (hearing (alarmed .clear) 0 (.journalCall 3 255)).HasRoom 1 ∧
      (hearing (alarmed .clear) 0 (.journalCall 3 255)).incoming = some (0, .journalCall 3 255) ∧
      (hearing (alarmed .clear) 0 (.journalCall 3 31)).incoming = some (0, .journalCall 3 31) ∧
      (hearing (alarmed .clear) 0 (.journalCall 4 0)).incoming = some (0, .journalCall 4 0) ∧ (alarmed .clear).position = 3 ∧
      (alarmed .clear).alarm.journal.length = 1 :=
  ⟨roomOf (by decide), by decide +kernel⟩

/-- Counts just below and at their limits. -/
theorem witness_DueExpiriesTaken :
    6 ≤ (due 6 20).neighbours.west.silence ∧ (due 6 20).neighbours.west.presence ≠ .absent ∧ ¬ 6 ≤ (due 5 19).neighbours.west.silence ∧
      (due 5 19).neighbours.clashCount < 20 ∧ ¬ (due 6 20).neighbours.clashCount < 20 := by decide

/-- Dark in RESET, and following the latch and the conditions once joined. -/
theorem witness_LampsAndSounder :
    State.reset.startup.straps = none ∧ (alarmed .clear).startup.straps.isSome = true ∧ (alarmed .clear).startup.state ≠ .reset ∧
      (alarmed .clear).startup.state ≠ .hold ∧ (alarmed .clear).eastSegment = .slowFlash ∧ (alarmed .clear).sounder = true ∧
      (due 6 20).westSegment = .steady ∧ (due 6 20).sounder = false ∧ (due 6 20).faultSegment = .steady ∧
      (alarmed .clear).faultSegment = .dark ∧ Segment.slowFlash.lit 16383 = true ∧ Segment.slowFlash.lit 16384 = false := by
  decide +kernel

end Witnesses

end Sys2Proof.Tests
end

section
/-! SUPPORT. The frame's timed commands: how time reaches an offset of the frame in progress, what the receive channels of a reply slot
hold, what the decoder makes of a captured stream, and what a tag reads of a driven frame (R1, R22, R24 to R27, R34 to R39). -/

namespace Sys2Proof.Machine

/-! ### Reaching an offset of the frame -/

theorem State.clockRuns_of_joined {s : State} (h : s.startup.state = .joined) : s.clockRuns = true := by
  simp [State.clockRuns, h]

/-- Running the clock on to the whole tick that is `n` ticks ahead raises the tick count by exactly `n`. -/
theorem ticks_elapsed (clock n : Nat) :
    (clock + ((clock / 15625 + n) * 15625 - clock)) / 15625 - clock / 15625 = n := by
  cases n with
  | zero =>
    have : clock / 15625 * 15625 - clock = 0 := by omega
    simp [this]
  | succ n => omega

/-- While JOINED, time to an offset puts the frame there exactly, and moves nothing but the clock and the offset (R1). -/
theorem State.toOffset_joined {s : State} (hs : s.startup.state = .joined) (hj : s.cadence.join = .joined) (o : Nat) :
    ∃ clock, s.toOffset o = s.withCadence { s.cadence with clock := clock, offset := max s.cadence.offset o } := by
  have hoff : s.cadence.offset + (o - s.cadence.offset) = max s.cadence.offset o := by omega
  refine ⟨s.cadence.clock + ((s.freeRun + (o - s.cadence.offset)) * 15625 - s.cadence.clock), ?_⟩
  simp only [State.toOffset, State.toTick, State.toMoment_eq (State.clockRuns_of_joined hs), Cadence.advance, hj, if_true,
    State.freeRun, Config.unitsPerTick, ticks_elapsed, hoff]

/-! ### The receive channels (R25) -/

/-- The slot ticks 2 to 15 of what a face hears. -/
def slotCapture (ticks : List FaceTick) : List FaceTick := (ticks.drop 2).take 14

/-- The strongest envelope of some ticks. -/
def strongest (ticks : List FaceTick) : Nat := ticks.foldl (fun m x => max m x.envelope) 0

/-- Slot ticks 2 to 15 raise the hold to the strongest envelope and capture the bits. -/
theorem Channel.foldl_captures (conversion : Nat) : ∀ (ticks : List FaceTick) (k : Nat) (c : Channel), 2 ≤ k →
    k + ticks.length ≤ 16 →
    (ticks.zipIdx k).foldl (fun c x => c.tick conversion x.1 x.2) c =
      ⟨ticks.foldl (fun m x => max m x.envelope) c.hold, c.stream ++ ticks.flatMap FaceTick.bits, c.amplitude⟩
  | [], _, _, _, _ => by simp
  | x :: xs, k, c, hlo, hhi => by
    simp only [List.length_cons] at hhi
    have hk : c.tick conversion x k = { c with hold := max c.hold x.envelope, stream := c.stream ++ x.bits } := by
      simp only [Channel.tick, if_neg (show k ≠ 0 by omega), if_pos (show 2 ≤ k ∧ k ≤ 15 by omega)]
    rw [List.zipIdx_cons, List.foldl_cons, hk, Channel.foldl_captures conversion xs (k + 1) _ (by omega) (by omega)]
    simp

/-- The 18 ticks of a slot: two before the capture, the fourteen captured, and the two of the conversions. -/
theorem slotTicks_cut {ticks : List FaceTick} (h : ticks.length = 18) :
    ∃ x y z w, ticks = x :: y :: (slotCapture ticks ++ [z, w]) ∧ (slotCapture ticks).length = 14 := by
  match ticks, h with
  | x :: y :: rest, h =>
    simp only [List.length_cons] at h
    obtain ⟨z, w, htail⟩ := List.length_eq_two.mp (show (rest.drop 14).length = 2 by simp; omega)
    refine ⟨x, y, z, w, ?_, by simp [slotCapture]; omega⟩
    rw [← htail, slotCapture, List.drop_succ_cons, List.drop_succ_cons, List.drop_zero, List.take_append_drop]

/-- After the 18 ticks of a slot a channel holds the captured bits and, converted, the strongest envelope of the capture. -/
theorem Channel.run_slot {conversion : Nat} (hc : conversion = 16 ∨ conversion = 17) {ticks : List FaceTick}
    (hlen : ticks.length = 18) :
    Channel.run conversion ticks = ⟨strongest (slotCapture ticks), (slotCapture ticks).flatMap FaceTick.bits,
      some (min 1023 (strongest (slotCapture ticks)))⟩ := by
  obtain ⟨x, y, z, w, hcut, hcap⟩ := slotTicks_cut hlen
  generalize slotCapture ticks = mid at hcut hcap ⊢
  subst hcut
  have hstart : ((⟨0, [], none⟩ : Channel).tick conversion x 0).tick conversion y 1 = ⟨0, [], none⟩ := by
    obtain rfl | rfl := hc <;> rfl
  simp only [Channel.run, List.zipIdx_cons, List.foldl_cons, List.zipIdx_append, List.foldl_append, Nat.zero_add, hstart]
  rw [Channel.foldl_captures conversion mid _ _ (by omega) (by omega), hcap]
  obtain rfl | rfl := hc <;> simp [Channel.tick, amplitudeOf, strongest]

/-! ### The decoder (R38, R39) -/

theorem leadIn_length : leadIn.length = 16 := rfl

@[simp] theorem bitsOf_length {w : Nat} (x : BitVec w) : (bitsOf x).length = w := by simp [bitsOf]

/-- The highest `k` bits of a word, taken as a number. -/
theorem bitsToNat_highest {w : Nat} (x : BitVec w) : ∀ k, k ≤ w →
    bitsToNat ((List.range k).map (fun i => x.getLsbD (w - 1 - i))) = x.toNat / 2 ^ (w - k)
  | 0, _ => by simp [bitsToNat, Nat.div_eq_of_lt x.isLt]
  | k + 1, h => by
    have ih := bitsToNat_highest x k (by omega)
    have hw : w - k = (w - (k + 1)) + 1 := by omega
    have hbit : (x.getLsbD (w - 1 - k)).toNat = x.toNat / 2 ^ (w - (k + 1)) % 2 := by
      rw [show w - 1 - k = w - (k + 1) by omega, BitVec.getLsbD, Nat.toNat_testBit]
    rw [hw, pow_succ, ← Nat.div_div_eq_div_mul] at ih
    simp only [bitsToNat, List.range_succ, List.map_append, List.foldl_append, List.map_cons, List.map_nil, List.foldl_cons,
      List.foldl_nil] at ih ⊢
    rw [ih, hbit]
    exact Nat.div_add_mod _ 2

/-- The bits of a word, highest first, are the word again. -/
theorem bitsToNat_bitsOf {w : Nat} (x : BitVec w) : bitsToNat (bitsOf x) = x.toNat := by
  simpa [bitsOf] using bitsToNat_highest x w le_rfl

/-- No lead-in that 48 bits follow: there is no word. -/
theorem findWord_none : ∀ {bits : List Bool}, (∀ pre post, bits = pre ++ leadIn ++ post → post.length < 48) →
    findWord bits = none
  | [], _ => rfl
  | b :: bs, h => by
    have hhere : ¬((b :: bs).take 16 == leadIn && decide (64 ≤ (b :: bs).length)) = true := by
      simp only [Bool.and_eq_true, beq_iff_eq, decide_eq_true_eq, not_and]
      intro hlead hlen
      have := h [] ((b :: bs).drop 16) (by rw [← hlead, List.nil_append, List.take_append_drop])
      rw [List.length_drop] at this
      omega
    have hlater : findWord bs = none :=
      findWord_none (fun pre post hbs => h (b :: pre) post (by rw [hbs]; rfl))
    rw [findWord, if_neg hhere, hlater]

/-- Zeros before a lead-in are passed over: a lead-in begins with a 1. -/
theorem findWord_silence (rest : List Bool) : ∀ n, findWord (List.replicate n false ++ rest) = findWord rest
  | 0 => rfl
  | n + 1 => by
    have hne : ∀ l : List Bool, ((false :: l).take 16 == leadIn) = false := fun l => by
      rw [beq_eq_false_iff_ne]
      exact fun h => absurd (congrArg List.head? h) (by simp [leadIn, bitsOf, List.range_succ])
    rw [List.replicate_succ, List.cons_append, findWord, hne]
    exact findWord_silence rest n

/-- A word right after the lead-in is found. -/
theorem findWord_leadIn (word : BitVec 48) (after : List Bool) :
    findWord (leadIn ++ bitsOf word ++ after) = some (bitsOf word) := by
  have hlen : 64 ≤ (leadIn ++ bitsOf word ++ after).length := by simp [leadIn_length]; omega
  have htake : (leadIn ++ bitsOf word ++ after).take 16 = leadIn := by
    rw [List.append_assoc, List.take_left' leadIn_length]
  have hword : ((leadIn ++ bitsOf word ++ after).drop 16).take 48 = bitsOf word := by
    rw [List.append_assoc, List.drop_left' leadIn_length, List.take_left' (bitsOf_length word)]
  generalize leadIn ++ bitsOf word ++ after = bits at hlen htake hword
  match bits with
  | b :: bs => rw [findWord, htake, hword, if_pos (by simpa using hlen)]

/-- A stream with no lead-in that 48 bits follow is GARBLED (R38). -/
theorem decodeStream_noWord (key : BitVec 4) {bits : List Bool}
    (h : ∀ pre post, bits = pre ++ leadIn ++ post → post.length < 48) : decodeStream key bits = .garbled := by
  rw [decodeStream, findWord_none h]

/-- The stream of a word sent after silence is decoded as that word (R38). -/
theorem decodeStream_word (key : BitVec 4) (silence : Nat) (word : BitVec 48) (after : List Bool) :
    decodeStream key (List.replicate silence false ++ leadIn ++ bitsOf word ++ after) = decodeWord key word := by
  have hfound : findWord (List.replicate silence false ++ leadIn ++ bitsOf word ++ after) = some (bitsOf word) := by
    rw [List.append_assoc, List.append_assoc, findWord_silence, ← List.append_assoc, findWord_leadIn]
  simp only [decodeStream, hfound, bitsToNat_bitsOf, BitVec.ofNat_toNat, BitVec.setWidth_eq]

/-- A word that fails its check or has no status code is GARBLED (R39). -/
theorem decodeWord_garbled (key : BitVec 4) {word : BitVec 48}
    (h : crc8 (be32 (word.extractLsb' 16 32) ++ [word.extractLsb' 8 8]) ≠ word.extractLsb' 0 8 ∨
      (word.extractLsb' 12 4 ≠ 6 ∧ word.extractLsb' 12 4 ≠ 9)) : decodeWord key word = .garbled := by
  dsimp only [decodeWord]
  obtain hcheck | hstatus := h
  · exact if_pos hcheck
  · rw [if_pos hstatus, ite_self]

/-! ### The reply of a tag (R36, R37, R39) -/

section TagWord

variable (serial : Serial) (unissued : Bool) (echo : BitVec 4)

theorem Tag.word_serial : (Tag.word serial unissued echo).extractLsb' 16 32 = serial :=
  BitVec.extractLsb'_append_eq_left
theorem Tag.word_statusEcho : (Tag.word serial unissued echo).extractLsb' 8 8 = Tag.statusCode unissued ++ echo :=
  (BitVec.extractLsb'_append_eq_of_add_le (by decide)).trans BitVec.extractLsb'_append_eq_left
theorem Tag.word_check : (Tag.word serial unissued echo).extractLsb' 0 8 =
    crc8 (be32 serial ++ [Tag.statusCode unissued ++ echo]) :=
  (BitVec.extractLsb'_append_eq_of_add_le (by decide)).trans BitVec.extractLsb'_append_eq_right
theorem Tag.word_status : (Tag.word serial unissued echo).extractLsb' 12 4 = Tag.statusCode unissued :=
  (BitVec.extractLsb'_append_eq_of_add_le (by decide)).trans
    ((BitVec.extractLsb'_append_eq_of_le (by decide)).trans BitVec.extractLsb'_append_eq_left)
theorem Tag.word_echo : (Tag.word serial unissued echo).extractLsb' 8 4 = echo :=
  (BitVec.extractLsb'_append_eq_of_add_le (by decide)).trans
    ((BitVec.extractLsb'_append_eq_of_le (by decide)).trans BitVec.extractLsb'_append_eq_right)

/-- A tag's word passes its check and has a status code: it is a reply under the key it echoes, and MISPLACED under another. -/
theorem decodeWord_tagWord (key : BitVec 4) :
    decodeWord key (Tag.word serial unissued echo) = if echo = key then .reply serial unissued else .misplaced := by
  simp only [decodeWord, Tag.word_serial, Tag.word_statusEcho, Tag.word_check, Tag.word_status, Tag.word_echo]
  cases unissued <;> by_cases h : echo = key <;> simp [Tag.statusCode, h]

end TagWord
end Sys2Proof.Machine
end

section
/-! CERTIFICATE. FRAME_START: what the blocks that count hold afterwards (R21, R22, R81, R83, R85, R118, R120, R121, R152, R173). -/

namespace Sys2Proof.Machine

/-! ### The event -/

/-- The blocks that a drop report cannot reach, after a frame start by counting: each has done its own work for the stamp that follows
the present one (R2, R4). -/
structure CountedTo (s t : State) : Prop where
  stamp : t.stamp = s.stamp.next
  field : t.field = s.field.beginFrame 0
  lane : t.lane = s.lane.frameStart s.stamp.next
  neighbours : t.neighbours = if s.stamp.next.index = 0 then s.countSilence else s.neighbours
  carried : t.carried = countGraces s.carried
  alarm : t.alarm = { s.alarm with journal := ageJournal s.alarm.journal }

/-- The frame-start event does that work whatever the clock shows, and the drop reports that follow it leave it so. -/
theorem CountedTo.of_event (s : State) (c : Cadence) (at0 : Nat) (view : StatusView) (ties : Ties) :
    CountedTo s (((s.withCadence c).frameStartEvent s.stamp.next 0 at0 false view).finishOffers ties) := by
  have hreports := ((s.withCadence c).frameStartEvent s.stamp.next 0 at0 false view).finishOffers_frame ties
  have hsilence : (s.withCadence c).countSilence = s.countSilence := rfl
  refine ⟨?_, ?_, ?_, ?_, ?_, ?_⟩
  · rw [State.stamp, hreports.blocks .cadence (by simp), State.frameStartEvent_cadence]
    rfl
  · rw [hreports.blocks .field (by simp), State.frameStartEvent_field, State.withCadence_field]
  · rw [hreports.blocks .lane (by simp), State.frameStartEvent_lane, State.withCadence_lane]
  · rw [hreports.blocks .neighbours (by simp), State.frameStartEvent_neighbours, hsilence, State.withCadence_neighbours]
  · rw [hreports.blocks .carried (by simp), State.frameStartEvent_carried, State.withCadence_carried]
  · rw [hreports.blocks .alarm (by simp), State.frameStartEvent_alarm, State.withCadence_alarm]

/-- FRAME_START while JOINED reaches the next frame by counting (R1, R2). -/
theorem exec_frameStart_counts {s : State} (hs : s.startup.state = .joined) (hj : s.cadence.join = .joined)
    (view : StatusView) : ∃ t, exec (.frameStart view) s = .next t ∧ SameBut s atFrameStart t ∧ CountedTo s t := by
  obtain ⟨clock, hto⟩ := State.toOffset_joined hs hj (frameLength s.cadence.frameIdx)
  obtain ⟨t, hexec, hframe⟩ := exec_frameStart_moves s view
  have ht : exec (.frameStart view) s = .next t := hexec
  rw [show exec (.frameStart view) s = execFrameStart view s from rfl, execFrameStart,
    if_pos (by simp [State.isJoined, hj]), hto, Host.Outcome.next.injEq] at ht
  exact ⟨t, hexec, hframe, ht ▸ CountedTo.of_event s _ _ view .none⟩

/-! ### The blocks -/

/-- Before frame 24 the next frame is one of the same super-frame (R4). -/
theorem Stamp.next_index_ne_zero {st : Stamp} (h : st.index < 24) : st.next.index ≠ 0 := by simp [Stamp.next, h]

/-- After frame 24 comes frame 0 (R4). -/
theorem Stamp.next_index_zero {st : Stamp} (h : st.index = 24) : st.next.index = 0 := by simp [Stamp.next, h]

/-- A frame that begins by counting is driven when the field is running (R22). -/
theorem FieldDriver.beginFrame_zero (f : FieldDriver) : f.beginFrame 0 = ⟨f.taken, none, f.taken, f.taken⟩ := by
  simp [FieldDriver.beginFrame]

/-- The break duration at a frame start (R85). -/
theorem Beam.countFrame_eq (b : Beam) :
    b.countFrame = { b with duration := if b.broken then min 1500 (b.duration + 1) else b.duration } := by
  obtain ⟨broken, differ, duration, stuck⟩ := b
  cases broken <;> rfl

/-- The counts of a frame 0 start: silence of the kept records and of the line, and of a clash (R118, R120, R121). -/
theorem State.countSilence_eq (s : State) : s.countSilence = { s.neighbours with
    west := { s.neighbours.west with
      silence := if 2 ≤ s.position then min 255 (s.neighbours.west.silence + 1) else s.neighbours.west.silence }
    east := { s.neighbours.east with
      silence := if s.position ≤ 8 then min 255 (s.neighbours.east.silence + 1) else s.neighbours.east.silence }
    lineSilence := min 255 (s.neighbours.lineSilence + 1)
    clashCount := if s.neighbours.clash then min 20 (s.neighbours.clashCount + 1) else s.neighbours.clashCount } := by
  by_cases hwest : 2 ≤ s.position <;> by_cases heast : s.position ≤ 8 <;>
    simp [State.countSilence, State.keepsWest, State.keepsEast, saturate, clashFrames, hwest, heast]

/-- With no grace at 0 already, every entry stays and loses one frame (R152). -/
theorem countGraces_pos {l : List CarriedEntry} (h : ∀ e ∈ l, 0 < e.grace) :
    countGraces l = l.map (fun e => { e with grace := e.grace - 1 }) := by
  rw [countGraces, List.filter_eq_self.mpr (by simpa using h)]

/-- Settles O22: each clause is what CountedTo says of its block. -/
theorem frameStartCountsBlocks : Obligations.FrameStartCountsBlocks := by
  unfold Obligations.FrameStartCountsBlocks
  intro s view hs hj _ hstarted hgraces
  obtain ⟨t, hexec, hframe, hstamp, hfield, hlane, hneighbours, hcarried, halarm⟩ := exec_frameStart_counts hs hj view
  rw [FieldDriver.beginFrame_zero] at hfield
  rw [LaneMonitor.frameStart, if_pos hstarted] at hlane
  have htaken : t.field.running = s.field.taken := by rw [hfield]
  refine ⟨t, hexec, hframe, by rw [hfield], ?_, ?_, ?_, ⟨?_, ?_, ?_, ?_, ?_⟩, ?_, ?_, ?_, ?_⟩
  · intro h
    rw [htaken, FieldDriver.taken, h]
  · intro h
    rw [htaken, FieldDriver.taken, h]
  · intro h
    rw [htaken, FieldDriver.taken, h]
  · rw [hlane]
  · rw [hlane]
    rfl
  · rw [hlane, ← Beam.countFrame_eq]
  · rw [hlane, ← Beam.countFrame_eq]
  · intro a ha hprogress
    rw [hlane, hstamp]
    simp only [hprogress, ha, if_true, Option.map_some, loiterClamp]
  · intro h
    rw [hneighbours, if_neg (Stamp.next_index_ne_zero h)]
  · intro h
    rw [hneighbours, if_pos (Stamp.next_index_zero h), State.countSilence_eq]
  · rw [hcarried, countGraces_pos hgraces]
  · rw [halarm]
    rfl

end Sys2Proof.Machine
end

section
/-! CERTIFICATE. SLOT_END: which slots are sampled, how the chosen face's stream is decoded, and what reaches the sighting table (R24 to
R27, R38 to R40, R43). -/

namespace Sys2Proof.Machine

/-! ### A sampled slot -/

section Slot

/-- A slot is sampled when it begins at the start offset or later and none of its ticks is skipped (R24). -/
theorem Cadence.slotSampled_iff (c : Cadence) (settle slot : Nat) :
    c.slotSampled settle slot = true ↔ c.startOffset ≤ slotBegin settle slot ∧
      ∀ f k, (f, k) ∈ c.skips → slotBegin settle slot + 18 ≤ f ∨ f + k ≤ slotBegin settle slot := by
  simp [Cadence.slotSampled, imp_iff_not_or]

variable {s : State} {slot : Nat} {ws es : List FaceTick}

/-- A slot that is not sampled has no outcome (R24). -/
theorem exec_slotHeard_cut (h : ¬ s.cadence.slotSampled s.settings.settle slot = true) :
    exec (.slotHeard slot ws es) s = .next s := by
  change execSlotEnd _ _ _ _ _ s = _
  simp [execSlotEnd, h]

/-- The channel of a face after a slot in which it heard these ticks (R25). -/
def slotChannel (ticks : List FaceTick) : Channel :=
  ⟨strongest (slotCapture ticks), (slotCapture ticks).flatMap FaceTick.bits, some (min 1023 (strongest (slotCapture ticks)))⟩

/-- A sampled slot is taken at its end, in order, with what the channels hold (R24, R25). -/
theorem exec_slotHeard_sampled (hs : s.startup.state = .joined) (hj : s.cadence.join = .joined) (hslot : slot < 16)
    (hsampled : s.cadence.slotSampled s.settings.settle slot = true) (hended : s.cadence.slotsEnded ≤ slot)
    (hoff : s.cadence.offset ≤ slotBegin s.settings.settle slot + 18) (hw : ws.length = 18) (he : es.length = 18) :
    ∃ clock, exec (.slotHeard slot ws es) s = .next
      ((s.withCadence { s.cadence with
        clock := clock, offset := slotBegin s.settings.settle slot + 18, slotsEnded := slot + 1 }).takeSlot
          (slotChannel ws) (slotChannel es)) := by
  obtain ⟨clock, hto⟩ := State.toOffset_joined hs hj (slotBegin s.settings.settle slot + 18)
  rw [max_eq_right hoff] at hto
  refine ⟨clock, ?_⟩
  change execSlotEnd _ _ _ _ _ s = _
  simp only [execSlotEnd, faceTicks_map, hto, Channel.run_slot (.inl rfl : westConversion = 16 ∨ westConversion = 17) hw,
    Channel.run_slot (.inr rfl : eastConversion = 16 ∨ eastConversion = 17) he]
  rw [if_pos ⟨by simp [State.isJoined, hj], hslot, hsampled, hended, hoff⟩]
  rfl

/-! ### What the table takes -/

/-- The stream of the chosen face: the larger amplitude, the west of equals (R27). -/
def State.chosenStream (s : State) (west east : Channel) : List Bool :=
  if s.sampler.east.amplitude east ≤ s.sampler.west.amplitude west then s.sampler.west.stream west
  else s.sampler.east.stream east

theorem Face.stream_good {f : Face} (h : f.faulted = false) (c : Channel) : f.stream c = c.stream := by simp [Face.stream, h]

/-- A face with an amplitude above another one's is not FAULTED (R26). -/
theorem Face.good_of_lt_amplitude {f : Face} {c : Channel} {a : Nat} (h : a < f.amplitude c) : f.faulted = false := by
  cases hf : f.faulted with
  | false => rfl
  | true => simp [Face.amplitude, hf] at h

/-- The chosen stream, told by the amplitudes and what each face has captured. -/
theorem State.chosenStream_eq {west east : Channel} {bits : List Bool}
    (hwest : s.sampler.east.amplitude east ≤ s.sampler.west.amplitude west →
      s.sampler.west.faulted = false ∧ bits = west.stream)
    (heast : s.sampler.west.amplitude west < s.sampler.east.amplitude east → bits = east.stream) :
    s.chosenStream west east = bits := by
  unfold State.chosenStream
  split
  case isTrue h =>
    obtain ⟨hgood, hbits⟩ := hwest h
    rw [Face.stream_good hgood, hbits]
  case isFalse h => rw [Face.stream_good (Face.good_of_lt_amplitude (not_le.mp h)), heast (not_le.mp h)]

/-- An EMPTY slot leaves no trace (R26). -/
theorem State.takeSlot_empty {west east : Channel} (hw : s.sampler.west.amplitude west < s.settings.noiseFloor)
    (he : s.sampler.east.amplitude east < s.settings.noiseFloor) : s.takeSlot west east = s := by
  simp [State.takeSlot, hw, he]

/-- A slot that is not EMPTY hands a reply of the chosen stream to the table, and leaves no other trace (R27, R39, R40). -/
theorem State.takeSlot_sightings {west east : Channel} (h : s.settings.noiseFloor ≤ s.sampler.west.amplitude west ∨
      s.settings.noiseFloor ≤ s.sampler.east.amplitude east) :
    (s.takeSlot west east).sightings =
      match decodeStream s.cadence.slotKey (s.chosenStream west east) with
      | .reply serial unissued => applyReply s.settings.moveStep ⟨serial, unissued, watchMatch s.settings.watch serial, s.stamp,
          s.sampler.west.amplitude west, s.sampler.east.amplitude east⟩ s.sightings
      | .garbled => s.sightings
      | .misplaced => s.sightings := by
  have hheard : ¬(s.sampler.west.amplitude west < s.settings.noiseFloor ∧
      s.sampler.east.amplitude east < s.settings.noiseFloor) := by omega
  have hchosen : s.decodeSlot (s.sampler.west.amplitude west) (s.sampler.east.amplitude east) west east =
      decodeStream s.cadence.slotKey (s.chosenStream west east) := rfl
  simp only [State.takeSlot, if_neg hheard, hchosen]
  cases decodeStream s.cadence.slotKey (s.chosenStream west east) <;> rfl

/-- A GARBLED slot leaves no trace (R39). -/
theorem State.takeSlot_garbled {west east : Channel}
    (h : decodeStream s.cadence.slotKey (s.chosenStream west east) = .garbled) :
    (s.takeSlot west east).sightings = s.sightings := by
  by_cases hheard : s.settings.noiseFloor ≤ s.sampler.west.amplitude west ∨
      s.settings.noiseFloor ≤ s.sampler.east.amplitude east
  · rw [State.takeSlot_sightings hheard, h]
  · obtain ⟨hw, he⟩ := not_or.mp hheard
    rw [State.takeSlot_empty (not_le.mp hw) (not_le.mp he)]

/-- A tag's transmission in the chosen stream is applied under the key of the frame, and leaves no trace under another (R39, R40). -/
theorem State.takeSlot_transmission {west east : Channel} {silence : Nat} {after : List Bool} {serial : Serial}
    {unissued : Bool} {echo : BitVec 4}
    (hheard : s.settings.noiseFloor ≤ s.sampler.west.amplitude west ∨ s.settings.noiseFloor ≤ s.sampler.east.amplitude east)
    (h : s.chosenStream west east =
      List.replicate silence false ++ Tag.transmission serial unissued echo ++ after) :
    (s.takeSlot west east).sightings = if echo = s.cadence.slotKey then
      applyReply s.settings.moveStep ⟨serial, unissued, watchMatch s.settings.watch serial, s.stamp,
        s.sampler.west.amplitude west, s.sampler.east.amplitude east⟩ s.sightings
      else s.sightings := by
  rw [State.takeSlot_sightings hheard, h, Tag.transmission, ← List.append_assoc, decodeStream_word, decodeWord_tagWord]
  by_cases hkey : echo = s.cadence.slotKey <;> simp [hkey]

end Slot

/-- Settles O26: the slot's end is reached, each channel holds its capture, and the chosen stream decides what the table takes. -/
theorem slotRepliesApplied : Obligations.SlotRepliesApplied := by
  unfold Obligations.SlotRepliesApplied
  intro s slot begin ws es hs hj hslot hbegin
  obtain rfl : begin = slotBegin s.settings.settle slot := hbegin
  refine ⟨fun hcut => exec_slotHeard_cut ?_, fun hstart hskips hended hoff hw he aw ae haw hae => ?_⟩
  · rw [Cadence.slotSampled_iff]
    rintro ⟨hstart, hskips⟩
    obtain hbefore | ⟨f, k, hmem, hf, hk⟩ := hcut
    · omega
    · have := hskips f k hmem
      omega
  · obtain ⟨clock, hexec⟩ := exec_slotHeard_sampled hs hj hslot ((Cadence.slotSampled_iff _ _ _).mpr ⟨hstart, hskips⟩)
      hended hoff hw he
    set u := s.withCadence { s.cadence with
      clock := clock, offset := slotBegin s.settings.settle slot + 18, slotsEnded := slot + 1 }
    have hframe : SameBut u [.sightings] (u.takeSlot (slotChannel ws) (slotChannel es)) := u.takeSlot_frame _ _
    have hcadence := hframe.blocks .cadence (by simp)
    obtain rfl : aw = u.sampler.west.amplitude (slotChannel ws) := haw
    obtain rfl : ae = u.sampler.east.amplitude (slotChannel es) := hae
    refine ⟨_, hexec, (s.withCadence_frame _).then hframe (by simp) (by simp), ?_, ?_, ?_, ?_, ?_, ?_⟩
    · rw [hcadence]; rfl
    · rw [hcadence]; rfl
    · rw [hcadence]; rfl
    · intro hwest heast
      rw [State.takeSlot_empty hwest heast]
      rfl
    · intro bits _ hwest heast hbad
      refine State.takeSlot_garbled (s := u) ?_
      rw [State.chosenStream_eq hwest heast]
      obtain hnone | ⟨silence, word, after, rfl, hword⟩ := hbad
      · exact decodeStream_noWord _ hnone
      · exact (decodeStream_word _ silence word after).trans (decodeWord_garbled _ hword)
    · intro silence after serial unissued echo hheard hwest heast
      have htable := State.takeSlot_transmission (s := u) hheard (State.chosenStream_eq
        (fun h => (hwest h).imp_right Eq.symm) (fun h => (heast h).symm))
      exact ⟨fun hkey => htable.trans (if_pos hkey), fun hkey => htable.trans (if_neg hkey)⟩

end Sys2Proof.Machine
end

section
/-! CERTIFICATE. COIL_CHECK: the reading of a face against its own history (R29 to R31). -/

namespace Sys2Proof.Machine

/-- A good reading is no coil fault (R29). -/
theorem coilBad_good {reading : Nat} (h : 41 ≤ reading ∧ reading ≤ 999) : coilBad reading = false := by
  simp [coilBad, amplitudeOf]
  omega

/-- A reading of a SHORTED or an OPEN coil is bad (R29). -/
theorem coilBad_bad {reading : Nat} (h : reading ≤ 40 ∨ 1000 ≤ reading) : coilBad reading = true := by
  simp [coilBad, amplitudeOf]
  omega

/-- A check keeps the count of a face in its range: 0 to 1 while GOOD, 0 to 2 while FAULTED (R30, R31). -/
theorem Face.check_range (f : Face) (bad : Bool) :
    ((f.check bad).faulted = false → (f.check bad).count ≤ 1) ∧ ((f.check bad).faulted = true → (f.check bad).count ≤ 2) := by
  obtain ⟨faulted, count⟩ := f
  cases faulted <;> cases bad <;> simp only [Face.check]
  case false.true => split <;> simp
  case true.false =>
    split
    · simp; omega
    · simp
  all_goals simp

/-- The check in the tail of frame 12, not yet done in it: each face is checked by its own reading (R28 to R31). -/
theorem exec_coilCheck_due {s : State} (hs : s.startup.state = .joined) (hj : s.cadence.join = .joined)
    (hidx : s.cadence.frameIdx = 12) (hdone : s.cadence.coilChecked = false)
    (hoff : s.cadence.offset ≤ 610 + s.settings.settle) (w e : Nat) :
    ∃ clock, exec (.coilCheck w e) s = .next
      ((s.withCadence { s.cadence with clock := clock, offset := 610 + s.settings.settle, coilChecked := true }).withSampler
        ⟨s.sampler.west.check (coilBad w), s.sampler.east.check (coilBad e)⟩) := by
  have hstop : tailBegin s.settings.settle + 2 = 610 + s.settings.settle := by simp only [tailBegin]; omega
  obtain ⟨clock, hto⟩ := State.toOffset_joined hs hj (610 + s.settings.settle)
  rw [max_eq_right hoff] at hto
  refine ⟨clock, ?_⟩
  change execCoilCheck _ _ s = _
  simp only [execCoilCheck, hstop, hto]
  rw [if_pos ⟨by simp [State.isJoined, hj], hidx, hdone, hoff⟩]
  rfl

/-- Settles O29: each face takes its own reading, and the cases are those of Face.check. -/
theorem coilCheckJudgesFaces : Obligations.CoilCheckJudgesFaces := by
  unfold Obligations.CoilCheckJudgesFaces
  intro s w e hs hj hidx hdone hoff _ _
  obtain ⟨clock, hexec⟩ := exec_coilCheck_due hs hj hidx hdone hoff w e
  refine ⟨_, hexec, (s.withCadence_frame _).then (State.withSampler_frame _ _) (by simp) (by simp), ?_, rfl, rfl, ?_⟩
  · simp [Cadence.sameButTime, hdone]
  · intro before after reading hface
    obtain rfl : after = before.check (coilBad reading) := by
      obtain h | h := hface <;> cases h <;> rfl
    clear hface
    refine ⟨fun hg hr => ?_, fun hg hr hc => ?_, fun hg hr hc => ?_, fun hf hr => ?_, fun hf hr hc => ?_, fun hf hr hc => ?_,
      fun _ => before.check_range _⟩
    · simp [Face.check, hg, coilBad_good hr]
    · simp [Face.check, hg, coilBad_bad hr, hc]
    · simp [Face.check, hg, coilBad_bad hr, hc]
    · simp [Face.check, hf, coilBad_bad hr]
    · simp [Face.check, hf, coilBad_good hr, Nat.lt_succ_of_le hc]
    · simp [Face.check, hf, coilBad_good hr, hc]

end Sys2Proof.Machine
end

section
/-! CERTIFICATE. The drive of a running frame and what a tag reads of it (R22, R34, R39). -/

namespace Sys2Proof.Machine

/-! ### The carrier of a frame -/

/-- Past the key cells the carrier is steady to the end of the transmit window (R22). -/
theorem carrierPattern_steady (key : BitVec 4) {t : Nat} (h : 32 ≤ t) : carrierPattern key t = decide (t < 320) :=
  if_neg (by omega)

/-- The first 5 ticks of a key cell are carrier (R22). -/
theorem carrierPattern_cellStart (key : BitVec 4) {t : Nat} (ht : t < 32) (h : t % 8 < 5) : carrierPattern key t = true := by
  simp [carrierPattern, ht, h]

/-- The last 3 ticks of a key cell carry its bit of the key (R22). -/
theorem carrierPattern_cellEnd (key : BitVec 4) {t : Nat} (ht : t < 32) (h : 5 ≤ t % 8) :
    carrierPattern key t = key.getLsbD (3 - t / 8) := by
  simp [carrierPattern, ht, Nat.not_lt.mpr h]

/-- No gap in the transmit window is longer than 3 ticks: a gap is the end of a cell that began with carrier (R22). -/
theorem carrierPattern_gap (key : BitVec 4) {t : Nat} (ht : t < 320) :
    ∃ j, t ≤ j + 3 ∧ j ≤ t ∧ carrierPattern key j = true := by
  by_cases hcell : 32 ≤ t
  · exact ⟨t, by omega, le_rfl, by rw [carrierPattern_steady key hcell, decide_eq_true ht]⟩
  · exact ⟨t - (t % 8 - 4), by omega, by omega, carrierPattern_cellStart key (by omega) (by omega)⟩

/-- The drive from offset 0 is the whole pattern. -/
@[simp] theorem Tag.frameDrive_zero (key : BitVec 4) : Tag.frameDrive key 0 = carrierPattern key := by
  funext t
  simp [Tag.frameDrive]

/-- From its start offset on, a frame is driven by the pattern (R22). -/
theorem Tag.frameDrive_from (key : BitVec 4) {start t : Nat} (h : start ≤ t) :
    Tag.frameDrive key start t = carrierPattern key t := by simp [Tag.frameDrive, h]

theorem Tag.frameDrive_before (key : BitVec 4) {start t : Nat} (h : t < start) : Tag.frameDrive key start t = false := by
  simp [Tag.frameDrive, h]

/-! ### Where a tag starts its cell 0 -/

/-- Ticks without carrier are waited through (R34). -/
theorem Tag.cellZeroFrom_wait {carrier : Nat → Bool} : ∀ (n ticks t silent : Nat),
    (∀ i, t ≤ i → i < t + n → carrier i = false) →
    Tag.cellZeroFrom carrier (n + ticks) t silent = Tag.cellZeroFrom carrier ticks (t + n) (silent + n)
  | 0, ticks, t, silent, _ => by simp
  | n + 1, ticks, t, silent, h => by
    rw [show n + 1 + ticks = (n + ticks) + 1 by omega, Tag.cellZeroFrom, h t le_rfl (by omega)]
    simp only [Bool.false_eq_true, if_false]
    rw [Tag.cellZeroFrom_wait n ticks (t + 1) (silent + 1) (fun i _ _ => h i (by omega) (by omega))]
    congr 1 <;> omega

/-- Carrier after the rest starts cell 0 where it comes (R34). -/
theorem Tag.keyRead_at {carrier : Nat → Bool} {start ticks silent : Nat} (hrest : 32 ≤ silent)
    (hquiet : ∀ i, i < start → carrier i = false) (hcarrier : carrier start = true) :
    Tag.keyRead carrier (start + (ticks + 1)) silent = some (Tag.readKey (fun t => carrier (start + t))) := by
  have hstart : Tag.cellZeroFrom carrier (start + (ticks + 1)) 0 silent = some start := by
    rw [Tag.cellZeroFrom_wait start _ _ _ (fun i _ hi => hquiet i (by omega)), Nat.zero_add, Tag.cellZeroFrom, hcarrier,
      if_pos rfl, if_pos (show Tag.restGap ≤ silent + start by unfold Tag.restGap; omega)]
  rw [Tag.keyRead, hstart, Option.map_some]

/-- Where no gap is longer than 3 ticks, a tag in the midst of carrier starts no cell 0; the last `silent` ticks had none. -/
theorem Tag.cellZeroFrom_none {carrier : Nat → Bool} {stop : Nat}
    (hgap : ∀ i, i < stop → ∃ j, i ≤ j + 3 ∧ j ≤ i ∧ carrier j = true) : ∀ (ticks t silent : Nat), t + ticks ≤ stop →
    silent ≤ t → (∀ i, t - silent ≤ i → i < t → carrier i = false) → Tag.cellZeroFrom carrier ticks t silent = none
  | 0, _, _, _, _, _ => rfl
  | ticks + 1, t, silent, hstop, hle, hsilent => by
    have hshort : silent ≤ 3 := by
      by_contra hlong
      obtain ⟨j, hlo, hhi, hj⟩ := hgap (t - 1) (by omega)
      rw [hsilent j (by omega) (by omega)] at hj
      cases hj
    unfold Tag.cellZeroFrom
    split
    · rw [if_neg (show ¬ Tag.restGap ≤ silent by unfold Tag.restGap; omega)]
      exact Tag.cellZeroFrom_none hgap ticks (t + 1) 0 (by omega) (by omega) (fun i _ _ => by omega)
    case isFalse hno =>
      refine Tag.cellZeroFrom_none hgap ticks (t + 1) (silent + 1) (by omega) (by omega) (fun i hlo hhi => ?_)
      obtain rfl | hlt : i = t ∨ i < t := by omega
      · simpa using hno
      · exact hsilent i (by omega) hlt

/-- A tag that has heard carrier within 32 ticks reads nothing of a driven frame (R34). -/
theorem Tag.keyRead_busy (key : BitVec 4) {silent : Nat} (h : silent < 32) :
    Tag.keyRead (carrierPattern key) 320 silent = none := by
  have hnone : Tag.cellZeroFrom (carrierPattern key) 320 0 silent = none := by
    rw [Tag.cellZeroFrom, if_pos (carrierPattern_cellStart key (by omega) (by omega)),
      if_neg (show ¬ Tag.restGap ≤ silent by unfold Tag.restGap; omega)]
    exact Tag.cellZeroFrom_none (fun i hi => carrierPattern_gap key hi) 319 1 0 le_rfl (by omega) (fun i _ _ => by omega)
  rw [Tag.keyRead, hnone, Option.map_none]

/-! ### The key a tag reads -/

/-- A key is its four bits, the first sent the highest. -/
theorem key_of_bits : ∀ key : BitVec 4, BitVec.ofBool (key.getLsbD 3) ++ (BitVec.ofBool (key.getLsbD 2) ++
    (BitVec.ofBool (key.getLsbD 1) ++ BitVec.ofBool (key.getLsbD 0) : BitVec 2) : BitVec 3) = key := by
  decide

/-- A tag whose four cells read the bits of a key, the first the highest, has read that key (R34). -/
theorem Tag.readKey_eq {carrier : Nat → Bool} {key : BitVec 4}
    (h : ∀ cell < 4, Tag.cellReads carrier cell = key.getLsbD (3 - cell)) : Tag.readKey carrier = key := by
  rw [Tag.readKey, h 0 (by omega), h 1 (by omega), h 2 (by omega), h 3 (by omega)]
  exact key_of_bits key

/-- A cell of the pattern reads its bit of the key. -/
theorem Tag.cellReads_pattern (key : BitVec 4) {cell : Nat} (h : cell < 4) :
    Tag.cellReads (carrierPattern key) cell = key.getLsbD (3 - cell) := by
  rw [Tag.cellReads, carrierPattern_cellEnd key (by omega) (by omega), carrierPattern_cellEnd key (by omega) (by omega),
    carrierPattern_cellEnd key (by omega) (by omega), show (8 * cell + 5) / 8 = cell by omega,
    show (8 * cell + 6) / 8 = cell by omega, show (8 * cell + 7) / 8 = cell by omega, Bool.or_self, Bool.or_self]

theorem Tag.readKey_pattern (key : BitVec 4) : Tag.readKey (carrierPattern key) = key :=
  Tag.readKey_eq (fun _ => Tag.cellReads_pattern key)

/-- A cell heard under two drives reads 1 when it would under either (R34). -/
theorem Tag.cellReads_overlap (a b : Nat → Bool) (cell : Nat) :
    Tag.cellReads (Tag.overlap a b) cell = (Tag.cellReads a cell || Tag.cellReads b cell) := by
  simp only [Tag.cellReads, Tag.overlap]
  ac_rfl

theorem Tag.readKey_overlap (key other : BitVec 4) :
    Tag.readKey (Tag.overlap (carrierPattern key) (carrierPattern other)) = key ||| other :=
  Tag.readKey_eq (fun cell h => by
    rw [Tag.cellReads_overlap, Tag.cellReads_pattern key h, Tag.cellReads_pattern other h, BitVec.getLsbD_or])

/-- A cell past the key cells of the frame reads 1. -/
theorem Tag.cellReads_steady (key : BitVec 4) {cell : Nat} (hlo : 4 ≤ cell) (hhi : cell < 39) :
    Tag.cellReads (carrierPattern key) cell = true := by
  rw [Tag.cellReads, carrierPattern_steady key (by omega), decide_eq_true (by omega), Bool.true_or, Bool.true_or]

/-! ### A frame begun at offset 13 -/

/-- With bit 2 of the key at 1 there is carrier at offset 13, and every cell of the tag meets the carrier that begins the next cell of
the frame: the tag reads 15. -/
theorem Tag.keyRead_late_set {key : BitVec 4} (hbit : key.getLsbD 2 = true) {silent : Nat} (h : 32 ≤ silent) :
    Tag.keyRead (Tag.frameDrive key 13) 320 silent = some 15 := by
  have hcarrier : Tag.frameDrive key 13 13 = true := by
    rw [Tag.frameDrive_from key le_rfl, carrierPattern_cellEnd key (by omega) (by omega)]
    exact hbit
  rw [Tag.keyRead_at (start := 13) (ticks := 306) h (fun i hi => Tag.frameDrive_before key hi) hcarrier]
  refine congrArg some (Tag.readKey_eq fun cell hcell => ?_)
  have hnext : carrierPattern key (13 + (8 * cell + 5)) = true := by
    by_cases hkey : 13 + (8 * cell + 5) < 32
    · exact carrierPattern_cellStart key hkey (by omega)
    · rw [carrierPattern_steady key (by omega), decide_eq_true (by omega)]
  have hones : ∀ c < 4, (15 : BitVec 4).getLsbD (3 - c) = true := by decide
  rw [hones cell hcell, Tag.cellReads, Tag.frameDrive_from key (by omega), hnext, Bool.true_or, Bool.true_or]

/-- With bit 2 of the key at 0 the tag's cell 0 starts with cell 2 of the frame, at offset 16: the tag reads the key's bits 1 and 0, and
then two cells of steady carrier. -/
theorem Tag.keyRead_late_clear {key : BitVec 4} (hbit : key.getLsbD 2 = false) {silent : Nat} (h : 32 ≤ silent) :
    Tag.keyRead (Tag.frameDrive key 13) 320 silent = some (key.extractLsb' 0 2 ++ 3#2) := by
  have hquiet : ∀ i, i < 16 → Tag.frameDrive key 13 i = false := fun i hi => by
    by_cases hstart : i < 13
    · exact Tag.frameDrive_before key hstart
    · rw [Tag.frameDrive_from key (by omega), carrierPattern_cellEnd key (by omega) (by omega), show i / 8 = 1 by omega]
      exact hbit
  have hcarrier : Tag.frameDrive key 13 16 = true := by
    rw [Tag.frameDrive_from key (by omega), carrierPattern_cellStart key (by omega) (by omega)]
  have hcells : ∀ cell, Tag.cellReads (fun t => Tag.frameDrive key 13 (16 + t)) cell =
      Tag.cellReads (carrierPattern key) (cell + 2) := fun cell => by
    simp only [Tag.cellReads]
    rw [Tag.frameDrive_from key (by omega), Tag.frameDrive_from key (by omega), Tag.frameDrive_from key (by omega),
      show 16 + (8 * cell + 5) = 8 * (cell + 2) + 5 by omega, show 16 + (8 * cell + 6) = 8 * (cell + 2) + 6 by omega,
      show 16 + (8 * cell + 7) = 8 * (cell + 2) + 7 by omega]
  rw [Tag.keyRead_at (start := 16) (ticks := 303) h hquiet hcarrier]
  refine congrArg some (Tag.readKey_eq fun cell hcell => ?_)
  rw [hcells]
  by_cases hkey : cell < 2
  · rw [Tag.cellReads_pattern key (by omega)]
    refine (BitVec.getLsbD_append.trans ?_).symm
    rw [if_neg (by omega), BitVec.getLsbD_extractLsb', decide_eq_true (by omega), Bool.true_and,
      show 0 + (3 - cell - 2) = 3 - (cell + 2) by omega]
  · rw [Tag.cellReads_steady key (by omega) (by omega)]
    refine (BitVec.getLsbD_append.trans ?_).symm
    rw [if_pos (by omega)]
    obtain rfl | rfl : cell = 2 ∨ cell = 3 := by omega
    all_goals rfl

/-! ### The statement -/

/-- At offset 320 the drive is released (R22). -/
theorem exec_transmitWindowEnd_joined {s : State} (hs : s.startup.state = .joined) (hj : s.cadence.join = .joined) :
    ∃ clock, exec .transmitWindowEnd s = .next
      ((s.withCadence { s.cadence with clock := clock, offset := max s.cadence.offset 320 }).withField
        { s.field with drive := false }) := by
  obtain ⟨clock, hto⟩ := State.toOffset_joined hs hj 320
  refine ⟨clock, ?_⟩
  change execTransmitWindowEnd s = _
  rw [execTransmitWindowEnd, if_pos (by simp [State.isJoined, hj]), hto]
  rfl

/-- Settles O25: the release, the pattern of a driven frame, and the key a tag reads of it by where its cell 0 starts. -/
theorem transmitWindowReleased : Obligations.TransmitWindowReleased := by
  unfold Obligations.TransmitWindowReleased
  refine ⟨fun s hs hj => ?_, fun s hdrive hstart => ?_, fun key => ⟨Tag.readKey_pattern key, fun i hlo hhi => ?_, fun i hlo => ?_,
    fun i _ hhi => carrierPattern_gap key hhi⟩, fun key other silent h => ⟨?_, ?_, fun hbit => Tag.keyRead_late_set hbit h,
    fun hbit => Tag.keyRead_late_clear hbit h⟩, fun key silent h => ?_,
    fun serial unissued key read carrier ticks silent answer hread hanswer => ?_⟩
  · obtain ⟨clock, hexec⟩ := exec_transmitWindowEnd_joined hs hj
    exact ⟨_, hexec, (s.withCadence_frame _).then (State.withField_frame _ _) (by simp) (by simp), rfl,
      by simp [State.carrier], rfl, rfl⟩
  · rw [Tag.frameDrive_from _ hstart, State.carrier, hdrive, Bool.true_and]
  · rw [carrierPattern_steady key hlo, decide_eq_true hhi]
  · rw [carrierPattern_steady key (by omega), decide_eq_false (by omega)]
  · rw [Tag.frameDrive_zero, Tag.keyRead_now (carrierPattern_cellStart key (by omega) (by omega)) h 319, Tag.readKey_pattern]
  · have hcarrier : Tag.overlap (carrierPattern key) (carrierPattern other) 0 = true := by
      rw [Tag.overlap, carrierPattern_cellStart key (by omega) (by omega), Bool.true_or]
    rw [Tag.frameDrive_zero, Tag.frameDrive_zero, Tag.keyRead_now hcarrier h 319, Tag.readKey_overlap]
  · rw [Tag.frameDrive_zero, Tag.keyRead_busy key h]
  · obtain ⟨read', hread', rfl⟩ := Tag.reply_some hanswer
    obtain rfl : read = read' := Option.some.inj (hread.symm.trans hread')
    exact ⟨rfl, decodeWord_tagWord serial unissued read key⟩

end Sys2Proof.Machine
end

section
/-! CERTIFICATE. The check of a reply word against a wrong bit: the CRC-8 is additive, so a word's failure of its check is that of the
error in it alone (R36, R39). -/

namespace Sys2Proof.Machine

/-! ### The CRC-8 is additive -/

theorem crcShift_xor (a b : Byte) : crcShift (a ^^^ b) = crcShift a ^^^ crcShift b := by
  simp only [crcShift, BitVec.msb_xor, BitVec.shiftLeft_xor_distrib]
  cases a.msb <;> cases b.msb
  case false.false => rfl
  case false.true => exact BitVec.xor_assoc ..
  case true.false =>
    change a <<< 1 ^^^ b <<< 1 ^^^ 7#8 = (a <<< 1 ^^^ 7#8) ^^^ b <<< 1
    ac_rfl
  case true.true =>
    calc a <<< 1 ^^^ b <<< 1
      _ = a <<< 1 ^^^ b <<< 1 ^^^ (7#8 ^^^ 7#8) := by rw [BitVec.xor_self, BitVec.xor_zero]
      _ = (a <<< 1 ^^^ 7#8) ^^^ (b <<< 1 ^^^ 7#8) := by ac_rfl

theorem crcByte_xor (r r' b b' : Byte) : crcByte (r ^^^ r') (b ^^^ b') = crcByte r b ^^^ crcByte r' b' := by
  have hin : r ^^^ r' ^^^ (b ^^^ b') = (r ^^^ b) ^^^ (r' ^^^ b') := by ac_rfl
  simp only [crcByte, hin, crcShift_xor]

/-- The check register over the exclusive-OR of two messages is that of the two registers, from any values. -/
theorem foldl_crcByte_zipWith_xor : ∀ (xs ys : List Byte) (r r' : Byte), xs.length = ys.length →
    (List.zipWith (· ^^^ ·) xs ys).foldl crcByte (r ^^^ r') = xs.foldl crcByte r ^^^ ys.foldl crcByte r'
  | [], [], _, _, _ => rfl
  | x :: xs, y :: ys, r, r', h => by
    rw [List.zipWith_cons_cons, List.foldl_cons, crcByte_xor]
    exact foldl_crcByte_zipWith_xor xs ys _ _ (Nat.succ.inj h)

theorem crc8_zipWith_xor {xs ys : List Byte} (h : xs.length = ys.length) :
    crc8 (List.zipWith (· ^^^ ·) xs ys) = crc8 xs ^^^ crc8 ys :=
  foldl_crcByte_zipWith_xor xs ys 0 0 h

/-! ### The syndrome of a reply word -/

/-- The five bytes of a reply word that its check byte covers. -/
def checkedBytes (word : BitVec 48) : List Byte := be32 (word.extractLsb' 16 32) ++ [word.extractLsb' 8 8]

/-- What a reply word's check byte differs by from the CRC-8 of the bytes before it: 0 when the word passes its check. -/
def wordSyndrome (word : BitVec 48) : Byte := crc8 (checkedBytes word) ^^^ word.extractLsb' 0 8

theorem checkedBytes_xor (a b : BitVec 48) :
    checkedBytes (a ^^^ b) = List.zipWith (· ^^^ ·) (checkedBytes a) (checkedBytes b) := by
  simp [checkedBytes, be32, byteOf, BitVec.extractLsb'_xor]

theorem wordSyndrome_xor (a b : BitVec 48) : wordSyndrome (a ^^^ b) = wordSyndrome a ^^^ wordSyndrome b := by
  have hcrc : crc8 (checkedBytes (a ^^^ b)) = crc8 (checkedBytes a) ^^^ crc8 (checkedBytes b) := by
    have hlen : (checkedBytes a).length = (checkedBytes b).length := rfl
    rw [checkedBytes_xor, crc8_zipWith_xor hlen]
  simp only [wordSyndrome, hcrc, BitVec.extractLsb'_xor]
  ac_rfl

theorem wordSyndrome_tagWord (serial : Serial) (unissued : Bool) (echo : BitVec 4) :
    wordSyndrome (Tag.word serial unissued echo) = 0#8 := by
  rw [wordSyndrome, checkedBytes, Tag.word_serial, Tag.word_statusEcho, Tag.word_check, BitVec.xor_self]

/-- Each of the 48 positions alone, by computing its syndrome. -/
theorem wordSyndrome_oneBit : ∀ i < 48, wordSyndrome (1#48 <<< i) ≠ 0#8 := by decide +kernel

/-- A word whose syndrome is not 0 is GARBLED, whatever its status and its echo (R39). -/
theorem decodeWord_of_wordSyndrome (key : BitVec 4) {word : BitVec 48} (h : wordSyndrome word ≠ 0#8) :
    decodeWord key word = .garbled :=
  decodeWord_garbled key (.inl fun hcheck => h (BitVec.xor_eq_zero_iff.mpr hcheck))

/-- Settles O13: a tag's word adds nothing to the syndrome, and no single bit has the syndrome 0. -/
theorem singleBitErrorsGarbled : Obligations.SingleBitErrorsGarbled := by
  unfold Obligations.SingleBitErrorsGarbled
  intro serial unissued echo key i hi
  refine decodeWord_of_wordSyndrome key ?_
  rw [wordSyndrome_xor, wordSyndrome_tagWord, BitVec.zero_xor]
  exact wordSyndrome_oneBit i hi

end Sys2Proof.Machine
end

section
/-! SUPPORT. The lists that the invariants speak of, list by list: each operation on one keeps its entries distinct, and those on the sighting
table keep the table (R46, R55, R63, R125, R135, R143, R151). -/

namespace Sys2Proof.Machine

/-! ### Lists whose entries differ in a key -/

section Keys

variable {α κ : Type}

theorem insertBy_perm (before : α → α → Bool) (x : α) : ∀ l : List α, (insertBy before x l).Perm (x :: l)
  | [] => .refl _
  | y :: ys => by
    unfold insertBy
    split
    · exact .refl _
    · exact ((insertBy_perm before x ys).cons y).trans (.swap x y ys)

theorem sortBy_perm (before : α → α → Bool) : ∀ l : List α, (sortBy before l).Perm l
  | [] => .refl _
  | x :: xs => (insertBy_perm before x _).trans ((sortBy_perm before xs).cons x)

variable {key : α → κ}

/-- Entries that keep their keys go on differing. -/
theorem keys_map {f : α → α} (hf : ∀ x, key (f x) = key x) {l : List α} (h : l.Pairwise (fun a b => key a ≠ key b)) :
    (l.map f).Pairwise (fun a b => key a ≠ key b) := by
  simpa only [List.pairwise_map, hf] using h

/-- An entry of a new key may be added at the end. -/
theorem keys_concat {l : List α} {x : α} (h : l.Pairwise (fun a b => key a ≠ key b)) (fresh : ∀ y ∈ l, key y ≠ key x) :
    (l ++ [x]).Pairwise (fun a b => key a ≠ key b) :=
  List.pairwise_append.2 ⟨h, List.pairwise_singleton _ _, fun a ha b hb => by
    obtain rfl := List.mem_singleton.1 hb
    exact fresh a ha⟩

/-- The order does not matter. -/
theorem keys_perm {l m : List α} (h : l.Pairwise (fun a b => key a ≠ key b)) (p : m.Perm l) :
    m.Pairwise (fun a b => key a ≠ key b) :=
  (p.pairwise_iff (fun hab => Ne.symm hab)).2 h

/-- Of entries that differ in their keys, one key names one entry. -/
theorem eq_of_key {l : List α} (h : l.Pairwise (fun a b => key a ≠ key b)) {x y : α} (hx : x ∈ l) (hy : y ∈ l)
    (hk : key x = key y) : x = y := by
  by_contra hne
  have : Std.Symm (fun a b : α => key a ≠ key b) := ⟨fun _ _ => Ne.symm⟩
  exact h.forall hx hy hne hk

end Keys

/-! ### The sighting table -/

theorem TableSound.distinct {t : List Record} (h : TableSound t) : t.Pairwise (fun a b => a.serial ≠ b.serial) :=
  h.order.imp (fun hab he => absurd (congrArg BitVec.toNat he) (Nat.ne_of_lt hab))

/-- What a change of the sighting table keeps: its 48 places, its distinct serials, and its records with the 16 STRAY ones. -/
structure TableKept (t u : List Record) : Prop where
  length : t.length ≤ 48 → u.length ≤ 48
  distinct : t.Pairwise (fun a b => a.serial ≠ b.serial) → u.Pairwise (fun a b => a.serial ≠ b.serial)
  sound : TableSound t → TableSound u

theorem applyReply_distinct (m : Nat) (r : Reply) {t : List Record} (h : t.Pairwise (fun a b => a.serial ≠ b.serial)) :
    (applyReply m r t).Pairwise (fun a b => a.serial ≠ b.serial) := by
  unfold applyReply
  split
  case isTrue =>
    refine keys_map (fun rec => ?_) h
    split
    case isTrue he => exact Record.apply_serial m he
    case isFalse => rfl
  case isFalse hany =>
    have hfresh : ∀ x ∈ t, x.serial ≠ r.record.serial := fun x hx he =>
      hany (List.any_eq_true.2 ⟨x, hx, beq_iff_eq.2 he⟩)
    have hinsert : ∀ u : List Record, u.Sublist t → (insertRecord r.record u).Pairwise (fun a b => a.serial ≠ b.serial) :=
      fun u hu => keys_perm (List.pairwise_cons.2 ⟨fun x hx => (hfresh x (hu.subset hx)).symm, h.sublist hu⟩)
        (insertBy_perm _ _ _)
    split
    · exact hinsert t (List.Sublist.refl t)
    · split
      · exact hinsert _ List.filter_sublist
      · exact h

theorem applyReply_kept (m : Nat) {r : Reply} (hr : r.InRange) (t : List Record) : TableKept t (applyReply m r t) :=
  ⟨applyReply_length m r, applyReply_distinct m r, fun h => applyReply_sound h m hr⟩

theorem limitFirstStamps_kept (now : Stamp) (t : List Record) : TableKept t (limitFirstStamps now t) :=
  ⟨by simp [limitFirstStamps], keys_map (fun r => by split <;> rfl), fun h => limitFirstStamps_sound h now⟩

theorem fadeRecords_kept (now : Stamp) (t : List Record) : TableKept t (fadeRecords now t) :=
  ⟨by simp [fadeRecords], keys_map (fun r => by split <;> rfl), fun h => fadeRecords_sound h now⟩

theorem freeRecords_kept (now : Stamp) (t : List Record) : TableKept t (freeRecords now t) :=
  ⟨(List.length_filter_le _ _).trans, List.Pairwise.filter _, fun h => freeRecords_sound h now⟩

theorem resetRecords_kept (first : Stamp) (serials : List Serial) (t : List Record) :
    TableKept t (resetRecords first serials t) :=
  ⟨by simp [resetRecords], keys_map (fun r => by split <;> rfl), fun h => resetRecords_sound h first serials⟩

theorem markOne_distinct (now : Stamp) (x : Serial) {t : List Record} (h : t.Pairwise (fun a b => a.serial ≠ b.serial)) :
    (markOne now x t).Pairwise (fun a b => a.serial ≠ b.serial) := by
  unfold markOne
  refine keys_map (fun r => by split <;> rfl) ?_
  split
  · exact h
  · split
    · exact h.filter _
    · exact h

theorem markStrays_distinct (age : Nat) (now : Stamp) {t : List Record} (h : t.Pairwise (fun a b => a.serial ≠ b.serial)) :
    (markStrays age now t).Pairwise (fun a b => a.serial ≠ b.serial) := by
  unfold markStrays
  generalize sortBy _ _ = due
  induction due generalizing t with
  | nil => exact h
  | cons r due ih => exact ih (markOne_distinct now r.serial h)

theorem State.strayMarked_kept (s : State) (t : List Record) : TableKept t (s.strayMarked t) := by
  unfold State.strayMarked
  split
  · exact ⟨(markStrays_length _ _ _).trans, markStrays_distinct _ _, fun h => markStrays_sound h _ _⟩
  · exact ⟨id, id, id⟩

theorem TableKept.nil (t : List Record) : TableKept t [] := ⟨by simp, fun _ => .nil, fun _ => .nil⟩

/-! ### Claims, candidates and carried-in entries -/

/-- No two claims of one serial and lane (R143). -/
abbrev ClaimsDistinct (l : List Claim) : Prop := l.Pairwise (fun a b => ¬(a.serial = b.serial ∧ a.lane = b.lane))

theorem Claim.same_iff (a b : Claim) : a.same b = true ↔ a.serial = b.serial ∧ a.lane = b.lane := by
  simp [Claim.same]

theorem ClaimsDistinct.concat {l : List Claim} {c : Claim} (h : ClaimsDistinct l) (fresh : l.any c.same = false) :
    ClaimsDistinct (l ++ [c]) := by
  refine List.pairwise_append.2 ⟨h, List.pairwise_singleton _ _, fun a ha b hb => ?_⟩
  obtain rfl := List.mem_singleton.1 hb
  have := (Claim.same_iff b a).not.1 (by simpa using List.any_eq_false.1 fresh a ha)
  exact fun hab => this ⟨hab.1.symm, hab.2.symm⟩

theorem addClaim_distinct (c : Claim) {l : List Claim} (h : ClaimsDistinct l) : ClaimsDistinct (addClaim c l) := by
  unfold addClaim
  split
  case isTrue =>
    refine List.pairwise_map.2 (h.imp fun {a b} hab => ?_)
    simp only [Claim.same_iff]
    grind
  case isFalse hany =>
    simp only [Bool.not_eq_true] at hany
    split
    · exact h.concat hany
    · split
      · refine ClaimsDistinct.concat (h.filter _) (List.any_eq_false.2 fun x hx => ?_)
        exact List.any_eq_false.1 hany x (List.mem_filter.1 hx).1
      · exact h.concat hany

theorem addClaims_distinct (cs : List Claim) : ∀ {l : List Claim}, ClaimsDistinct l → ClaimsDistinct (addClaims cs l) := by
  unfold addClaims
  induction cs with
  | nil => exact id
  | cons c cs ih => exact fun h => ih (addClaim_distinct c h)

theorem countClaims_distinct {l : List Claim} (h : ClaimsDistinct l) : ClaimsDistinct (countClaims l) :=
  List.pairwise_map.2 (h.filter _)

/-- No two carried-in entries of one serial (R151). -/
abbrev CarriedDistinct (l : List CarriedEntry) : Prop := l.Pairwise (fun a b => a.serial ≠ b.serial)

theorem carryIn_distinct (g : Nat) (x : Serial) {l : List CarriedEntry} (h : CarriedDistinct l) :
    CarriedDistinct (carryIn g x l) := by
  unfold carryIn
  split
  case isTrue => exact keys_map (fun e => by split <;> rfl) h
  case isFalse hany =>
    have hfresh : ∀ e ∈ l, e.serial ≠ x := fun e he hx => hany (List.any_eq_true.2 ⟨e, he, beq_iff_eq.2 hx⟩)
    split
    · exact keys_concat h hfresh
    · split
      · exact keys_concat (h.filter _) (fun e he => hfresh e (List.mem_filter.1 he).1)
      · exact keys_concat h hfresh

theorem applySettlement_distinct (g : Nat) (es : List SettledEntry) :
    ∀ {l : List CarriedEntry}, CarriedDistinct l → CarriedDistinct (applySettlement g es l) := by
  unfold applySettlement
  induction es with
  | nil => exact id
  | cons e es ih =>
    refine fun h => ih ?_
    unfold applySettled
    split
    case h_1 => exact carryIn_distinct _ _ h
    case h_2 => exact h.filter _
    all_goals exact h

theorem countGraces_distinct {l : List CarriedEntry} (h : CarriedDistinct l) : CarriedDistinct (countGraces l) :=
  List.pairwise_map.2 (h.filter _)

/-- No two candidates of one serial (R125). -/
abbrev CandidatesDistinct (l : List Candidate) : Prop := l.Pairwise (fun b c => b.serial ≠ c.serial)

theorem mergeEntry_distinct (e : EvidenceEntry) {cs : List Candidate} (h : CandidatesDistinct cs) :
    CandidatesDistinct (mergeEntry cs e) := by
  unfold mergeEntry
  split
  case isTrue => exact keys_map (fun c => by split <;> rfl) h
  case isFalse hany =>
    have hfresh : ∀ c ∈ cs, c.serial ≠ e.candidate.serial := fun c hc he =>
      hany (List.any_eq_true.2 ⟨c, hc, beq_iff_eq.2 he⟩)
    split
    · exact keys_concat h hfresh
    · split
      · split
        · exact keys_concat (h.filter _) (fun c hc => hfresh c (List.mem_filter.1 hc).1)
        · exact h
      · exact h

theorem mergeAll_distinct (es : List EvidenceEntry) :
    ∀ {cs : List Candidate}, CandidatesDistinct cs → CandidatesDistinct (es.foldl mergeEntry cs) := by
  induction es with
  | nil => exact id
  | cons e es ih => exact fun h => ih (mergeEntry_distinct e h)

theorem keepLargest_distinct (key : Record → Nat) (n : Nat) {l : List Record}
    (h : l.Pairwise (fun a b => a.serial ≠ b.serial)) :
    (keepLargest key n l).Pairwise (fun a b => a.serial ≠ b.serial) := by
  unfold keepLargest
  split
  · exact h
  · exact keys_perm ((keys_perm h (sortBy_perm _ l)).sublist (List.take_sublist _ _)) (sortBy_perm _ _)

@[simp] theorem Candidate.contest_serial (lane rivalLane : Nat) (c : Candidate) (e : VerdictEntry) :
    (c.contest lane rivalLane e).serial = c.serial := by
  unfold Candidate.contest
  split <;> rfl

theorem Candidate.contestAll_serial (lane rivalLane : Nat) (es : List VerdictEntry) : ∀ c : Candidate,
    (es.foldl (Candidate.contest lane rivalLane) c).serial = c.serial := by
  induction es with
  | nil => exact fun _ => rfl
  | cons e es ih => exact fun c => (ih _).trans (c.contest_serial lane rivalLane e)

end Sys2Proof.Machine
end

section
/-! SUPPORT. What every piece of work of the machine keeps, whatever state it starts from: each shared operation is taken once, and works
done one after another keep what each of them keeps. -/

namespace Sys2Proof.Machine

/-! ### The relation -/

/-- The listed call ids differ, and the next `n` ids of the counter are free. -/
structure Adjudicator.IdsFree (n : Nat) (a : Adjudicator) : Prop where
  few : n ≤ 256
  listed : a.list.Pairwise (fun x y => x.callId ≠ y.callId)
  ahead : ∀ x ∈ a.list, ∀ k < n, x.callId ≠ a.nextCall + BitVec.ofNat 8 k

/-- From `s` to `t` every bound and every distinctness that held goes on holding, and at most `n` call ids are used. -/
structure StepKeeps (n : Nat) (s t : State) : Prop where
  capacity : s.WithinCapacity → t.WithinCapacity
  distinct : s.Distinct → t.Distinct
  table : TableSound s.sightings → TableSound t.sightings
  ids : ∀ m, s.adj.IdsFree (n + m) → t.adj.IdsFree m

/-- The listed ids are some of those before, and the counter has not moved. -/
theorem Adjudicator.IdsFree.of_sublist {n : Nat} {a b : Adjudicator} (h : a.IdsFree n)
    (ids : (b.list.map Adjudication.callId).Sublist (a.list.map Adjudication.callId)) (next : b.nextCall = a.nextCall) :
    b.IdsFree n := by
  refine ⟨h.few, ?_, fun x hx k hk => ?_⟩
  · exact List.pairwise_map.1 (List.Pairwise.sublist ids (List.pairwise_map.2 h.listed))
  · obtain ⟨y, hy, hyx⟩ := List.mem_map.1 (ids.subset (List.mem_map_of_mem hx))
    rw [next, ← hyx]
    exact h.ahead y hy k hk

/-- The counter moves on by one, past an id that the list does not gain. -/
theorem Adjudicator.IdsFree.skip {n : Nat} {a : Adjudicator} (h : a.IdsFree (1 + n)) :
    ({ a with nextCall := a.nextCall + 1 } : Adjudicator).IdsFree n := by
  refine ⟨by have := h.few; omega, h.listed, fun x hx k hk => ?_⟩
  have := h.ahead x hx (1 + k) (by omega)
  rwa [BitVec.ofNat_add, ← BitVec.add_assoc] at this

/-- The adjudication that takes the id the counter stands at is unlike those listed and those to come. -/
theorem Adjudicator.IdsFree.join {n : Nat} {a : Adjudicator} (h : a.IdsFree (1 + n)) {w : Adjudication}
    (hw : w.callId = a.nextCall) :
    ({ a with nextCall := a.nextCall + 1, list := a.list ++ [w] } : Adjudicator).IdsFree n := by
  have hskip := h.skip
  have hfew := h.few
  refine ⟨hskip.few, ?_, fun x hx k hk => ?_⟩
  · refine keys_concat h.listed fun x hx => ?_
    have := h.ahead x hx 0 (by omega)
    rwa [show BitVec.ofNat 8 0 = 0#8 from rfl, BitVec.add_zero, ← hw] at this
  · obtain hx | hx := List.mem_append.1 hx
    · exact hskip.ahead x hx k hk
    · obtain rfl := List.mem_singleton.1 hx
      dsimp only
      rw [hw]
      bv_omega

theorem StepKeeps.refl (s : State) : StepKeeps 0 s s :=
  ⟨id, id, id, fun m h => by rwa [Nat.zero_add] at h⟩

/-- One work after another. -/
theorem StepKeeps.trans {m n : Nat} {s t u : State} (h : StepKeeps m s t) (k : StepKeeps n t u) : StepKeeps (m + n) s u :=
  ⟨k.capacity ∘ h.capacity, k.distinct ∘ h.distinct, k.table ∘ h.table,
    fun l hl => k.ids l (h.ids (n + l) (by rwa [← Nat.add_assoc]))⟩

/-- Work that opens nothing, and then any work. -/
theorem StepKeeps.then {n : Nat} {s t u : State} (h : StepKeeps 0 s t) (k : StepKeeps n t u) : StepKeeps n s u := by
  simpa using h.trans k

/-- Any work, and then work that opens nothing. -/
theorem StepKeeps.andThen {n : Nat} {s t u : State} (h : StepKeeps n s t) (k : StepKeeps 0 t u) : StepKeeps n s u := h.trans k

/-- Fewer ids used are within more. -/
theorem StepKeeps.mono {m n : Nat} {s t : State} (h : StepKeeps m s t) (le : m ≤ n) : StepKeeps n s t :=
  ⟨h.capacity, h.distinct, h.table, fun l hl => h.ids l
    ⟨by have := hl.few; omega, hl.listed, fun x hx k hk => hl.ahead x hx k (by omega)⟩⟩

theorem StepKeeps.ite {n : Nat} {s a b : State} {p : Prop} [Decidable p] (ha : p → StepKeeps n s a) (hb : ¬p → StepKeeps n s b) :
    StepKeeps n s (if p then a else b) := by
  split
  · exact ha ‹_›
  · exact hb ‹_›

/-- A fold of works uses at most the ids of them all. -/
theorem StepKeeps.foldl {α : Type} {n : Nat} {f : State → α → State} (hf : ∀ s a, StepKeeps n s (f s a)) :
    ∀ (l : List α) (s : State), StepKeeps (l.length * n) s (l.foldl f s)
  | [], s => by simpa using StepKeeps.refl s
  | a :: l, s => by
    rw [List.length_cons, Nat.succ_mul, Nat.add_comm]
    exact (hf s a).trans (StepKeeps.foldl hf l _)

theorem StepKeeps.foldl_zero {α : Type} {f : State → α → State} (hf : ∀ s a, StepKeeps 0 s (f s a)) (l : List α) (s : State) :
    StepKeeps 0 s (l.foldl f s) := StepKeeps.foldl hf l s

/-! ### One block replaced -/

/-- Where the lists are those before, and the queue is no longer, everything is kept. -/
theorem StepKeeps.of_same {s t : State} (records : t.sightings = s.sightings) (queue : s.line.queue.length ≤ 12 →
      t.line.queue.length ≤ 12) (adj : t.adj = s.adj) (carried : t.carried = s.carried)
    (journal : s.alarm.journal.length ≤ 32 → t.alarm.journal.length ≤ 32) : StepKeeps 0 s t where
  capacity h := ⟨records ▸ h.records, queue h.queue, adj ▸ h.adjudications, adj ▸ h.candidates, adj ▸ h.claims,
    carried ▸ h.carried, journal h.journal⟩
  distinct h := ⟨records ▸ h.records, adj ▸ h.candidates, adj ▸ h.claims, carried ▸ h.carried⟩
  table h := records ▸ h
  ids m h := by rwa [adj, ← Nat.zero_add m]

/-- The blocks that hold none of the lists but the queue. -/
abbrev listless : List Block := [.cadence, .field, .sampler, .lane, .line, .neighbours, .startup]

/-- Work on the other blocks that leaves the queue within its bound. -/
theorem StepKeeps.of_frame {s t : State} {bs : List Block} (h : SameBut s bs t) (hb : bs ⊆ listless)
    (queue : s.line.queue.length ≤ 12 → t.line.queue.length ≤ 12) : StepKeeps 0 s t := by
  have h := h.mono hb
  refine .of_same (h.blocks .sightings ?_) queue (h.blocks .adj ?_) (h.blocks .carried ?_) ?_
  · decide
  · decide
  · decide
  · rw [h.blocks .alarm (by decide)]
    exact id

/-- Work that does not reach the row line either. -/
theorem StepKeeps.of_quiet {s t : State} {bs : List Block} (h : SameBut s bs t)
    (hb : bs ⊆ [.cadence, .field, .sampler, .lane, .neighbours, .startup]) : StepKeeps 0 s t :=
  .of_frame h (fun _ hx => by have := hb hx; simp at this ⊢; tauto) (by
    rw [(h.mono hb).blocks .line (by decide)]
    exact id)

/-- An adjudication that joins the list in the place of one of it is as full as the lists allow. -/
structure State.Holds (s : State) (a : Adjudication) : Prop where
  few : s.WithinCapacity → a.candidates.length ≤ 24
  distinct : s.Distinct → CandidatesDistinct a.candidates

theorem State.holds_of_mem {s : State} {a : Adjudication} (h : a ∈ s.adj.list) : s.Holds a :=
  ⟨fun k => k.candidates a h, fun k => k.candidates a h⟩

/-- A candidate list of the same serials is as full. -/
theorem State.Holds.congr {s : State} {a b : Adjudication} (h : s.Holds a)
    (k : b.candidates.map Candidate.serial = a.candidates.map Candidate.serial) : s.Holds b where
  few c := by
    have := congrArg List.length k
    simp only [List.length_map] at this
    exact this ▸ h.few c
  distinct c := List.pairwise_map.1 (k ▸ List.pairwise_map.2 (h.distinct c))

theorem State.Holds.mergePart {s : State} {a : Adjudication} (h : s.Holds a) (part : BitVec 4) (final : Bool)
    (es : List EvidenceEntry) : s.Holds (a.mergePart part final es) :=
  ⟨fun k => mergeAll_length es (h.few k), fun k => mergeAll_distinct es (h.distinct k)⟩

theorem State.Holds.weigh {s : State} {a : Adjudication} (h : s.Holds a) (x : Scales) : s.Holds (x.weigh a) :=
  h.congr (by simp [Scales.weigh, Scales.weighOne])

section Blocks

variable (s : State)

theorem State.withLine_keeps {l : RowLine} (h : s.line.queue.length ≤ 12 → l.queue.length ≤ 12) :
    StepKeeps 0 s (s.withLine l) :=
  .of_frame (s.withLine_frame l) (by decide) h

theorem State.withAlarm_keeps {a : AlarmUnit} (h : s.alarm.journal.length ≤ 32 → a.journal.length ≤ 32) :
    StepKeeps 0 s (s.withAlarm a) := .of_same rfl id rfl rfl h

theorem State.withSightings_keeps {l : List Record} (h : TableKept s.sightings l) : StepKeeps 0 s (s.withSightings l) where
  capacity k := State.withSightings_capacity k (h.length k.records)
  distinct k := ⟨h.distinct k.records, k.candidates, k.claims, k.carried⟩
  table := h.sound
  ids m k := by rwa [Nat.zero_add] at k

theorem State.withCarried_keeps {l : List CarriedEntry} (length : s.carried.length ≤ 32 → l.length ≤ 32)
    (distinct : CarriedDistinct s.carried → CarriedDistinct l) : StepKeeps 0 s (s.withCarried l) where
  capacity k := State.withCarried_capacity k (length k.carried)
  distinct k := ⟨k.records, k.candidates, k.claims, distinct k.carried⟩
  table := id
  ids m k := by rwa [Nat.zero_add] at k

theorem State.withClaims_keeps {l : List Claim} (length : s.adj.claims.length ≤ 32 → l.length ≤ 32)
    (distinct : ClaimsDistinct s.adj.claims → ClaimsDistinct l) : StepKeeps 0 s (s.withAdj { s.adj with claims := l }) where
  capacity k := State.withClaims_capacity k (length k.claims)
  distinct k := ⟨k.records, k.candidates, distinct k.claims, k.carried⟩
  table := id
  ids m k := (by rwa [Nat.zero_add] at k : s.adj.IdsFree m).of_sublist (List.Sublist.refl _) rfl

/-- The list loses entries or changes them under their call ids. -/
theorem State.withList_keeps {l : List Adjudication}
    (ids : (l.map Adjudication.callId).Sublist (s.adj.list.map Adjudication.callId)) (holds : ∀ a ∈ l, s.Holds a) :
    StepKeeps 0 s (s.withList l) where
  capacity k := State.withList_capacity k (by simpa using ids.length_le.trans (by simpa using k.adjudications))
    (fun a ha => (holds a ha).few k)
  distinct k := ⟨k.records, fun a ha => (holds a ha).distinct k, k.claims, k.carried⟩
  table := id
  ids m k := (by rwa [Nat.zero_add] at k : s.adj.IdsFree m).of_sublist ids rfl

theorem State.removeAdj_keeps (id : Byte) : StepKeeps 0 s (s.withList (removeAdj id s.adj.list)) :=
  s.withList_keeps (List.filter_sublist.map _) (fun _ ha => State.holds_of_mem (mem_removeAdj ha))

/-- Every adjudication keeps its call id and the serials of its candidates. -/
theorem State.mapList_keeps {f : Adjudication → Adjudication} (ids : ∀ a, (f a).callId = a.callId)
    (serials : ∀ a, (f a).candidates.map Candidate.serial = a.candidates.map Candidate.serial) :
    StepKeeps 0 s (s.withList (s.adj.list.map f)) :=
  s.withList_keeps (by rw [List.map_map, show Adjudication.callId ∘ f = Adjudication.callId from funext ids]) (fun a ha => by
    obtain ⟨b, hb, rfl⟩ := List.mem_map.1 ha
    exact (State.holds_of_mem hb).congr (serials b))

theorem State.replaceAdj_keeps {a : Adjudication} (h : s.Holds a) : StepKeeps 0 s (s.withList (replaceAdj a s.adj.list)) :=
  s.withList_keeps (by
    have : (replaceAdj a s.adj.list).map Adjudication.callId = s.adj.list.map Adjudication.callId := by
      simp only [replaceAdj, List.map_map]
      refine List.map_congr_left fun b _ => ?_
      dsimp only [Function.comp_apply]
      split
      case isTrue he => exact he.symm
      case isFalse => rfl
    rw [this]) (fun b hb => by
    rcases mem_replaceAdj hb with rfl | hb
    · exact h
    · exact State.holds_of_mem hb)

theorem State.emptyList_keeps : StepKeeps 0 s (s.withList []) :=
  s.withList_keeps (List.nil_sublist _) (by simp)

end Blocks

/-! ### Offers, withdrawals and drop reports -/

section Operations

variable (s : State)

theorem State.offer_keeps (n : Notice) : StepKeeps 0 s (s.offer n) :=
  .ite (fun _ => .refl s) (fun _ => s.withLine_keeps (RowLine.offer_length s.line _))

theorem State.offerAll_keeps (ns : List Notice) : StepKeeps 0 s (s.offerAll ns) := .foldl_zero State.offer_keeps ns s

theorem State.withdraw_keeps (p : Notice → Bool) : StepKeeps 0 s (s.withdraw p) :=
  s.withLine_keeps ((withdrawFrom_length p _).trans)

theorem State.abandonAll_keeps : StepKeeps 0 s s.abandonAll := (s.withdraw_keeps _).then (State.emptyList_keeps _)

theorem State.startHold_keeps (id : Byte) : StepKeeps 0 s (s.startHold id) :=
  s.mapList_keeps (fun a => by split <;> rfl) (fun a => by split <;> rfl)

theorem State.startDeadline_keeps (id : Byte) : StepKeeps 0 s (s.startDeadline id) :=
  s.mapList_keeps (fun a => by split <;> rfl) (fun a => by split <;> rfl)

theorem State.addClaims_keeps (cs : List Claim) : StepKeeps 0 s (s.withAdj { s.adj with claims := addClaims cs s.adj.claims }) :=
  s.withClaims_keeps (addClaims_length cs) (addClaims_distinct cs)

theorem State.giveVerdict_keeps (ties : Ties) (w : Adjudication) : StepKeeps 0 s (s.giveVerdict ties w) :=
  (s.offerAll_keeps _).then ((State.addClaims_keeps _ _).then (State.withSightings_keeps _ (resetRecords_kept _ _ _)))

theorem State.weighListed_keeps (ties : Ties) {a : Adjudication} (h : s.Holds a) : StepKeeps 0 s (s.weighListed ties a) :=
  .ite (fun _ => s.removeAdj_keeps _) (fun _ => (s.replaceAdj_keeps (h.weigh _)).then (State.giveVerdict_keeps _ _ _))

theorem State.dropReport_keeps (ties : Ties) (n : Notice) : StepKeeps 0 s (s.dropReport ties n) := by
  unfold State.dropReport
  split
  · split
    case h_1 a ha => exact s.weighListed_keeps ties ((State.holds_of_mem (List.mem_of_find?_eq_some ha)).congr rfl)
    case h_2 => exact .refl s
  · exact s.startHold_keeps _
  · exact .refl s

theorem State.takeReports_keeps (ties : Ties) : ∀ (fuel : Nat) (s : State), StepKeeps 0 s (s.takeReports ties fuel)
  | 0, s => .refl s
  | fuel + 1, s => by
    unfold State.takeReports
    split
    · exact .refl s
    · exact (s.withLine_keeps (by exact id)).then ((State.dropReport_keeps _ _ _).then (State.takeReports_keeps ties fuel _))

theorem State.finishOffers_keeps (ties : Ties) : StepKeeps 0 s (s.finishOffers ties) := State.takeReports_keeps ties _ s

/-! ### The latch and the journal -/

theorem State.changeLatch_keeps (l : Latch) (c : LatchChange) : StepKeeps 0 s (s.changeLatch l c) :=
  (s.withAlarm_keeps (by exact id)).then (State.offer_keeps _ _)

theorem State.raiseLatch_keeps (c : AlarmClass) : StepKeeps 0 s (s.raiseLatch c) := by
  unfold State.raiseLatch
  split <;> exact s.changeLatch_keeps _ _

theorem State.acknowledgeSet_keeps : StepKeeps 0 s s.acknowledgeSet := by
  unfold State.acknowledgeSet
  split
  · exact s.changeLatch_keeps _ _
  · exact .ite (fun _ => .refl s) (fun _ => .ite (fun _ => s.changeLatch_keeps _ _) (fun _ => s.changeLatch_keeps _ _))

theorem State.acknowledge_keeps : StepKeeps 0 s s.acknowledge :=
  .ite (fun _ => .refl s) (fun _ => (s.withAlarm_keeps (by simp [markJournal])).then (State.acknowledgeSet_keeps _))

theorem State.returnToClear_keeps : StepKeeps 0 s s.returnToClear :=
  .ite (fun _ => s.changeLatch_keeps _ _) (fun _ => .refl s)

theorem State.answerJournal_keeps (i : Byte) : StepKeeps 0 s (s.answerJournal i) :=
  (s.withAlarm_keeps (by exact id)).then (State.offer_keeps _ _)

/-! ### Settlement and opening -/

theorem State.settle_keeps (ties : Ties) (a : Adjudication) : StepKeeps 0 s (s.settle ties a) := by
  have hoffered := s.offerAll_keeps a.settlements
  have hcarried := State.withCarried_keeps (s.offerAll a.settlements)
    (applySettlement_length ((s.offerAll a.settlements).settledGrace ties) a.settled)
    (applySettlement_distinct ((s.offerAll a.settlements).settledGrace ties) a.settled)
  have hjournal := fun (u : State) (es : List JournalEntry) => u.withAlarm_keeps
    (a := { u.alarm with journal := es.foldl (fun j e => appendJournal e j) u.alarm.journal }) (appendAll_length es)
  unfold State.settle
  dsimp only
  split
  · exact hoffered.then (hcarried.then ((hjournal _ _).then (State.raiseLatch_keeps _ _)))
  · exact hoffered.then (hcarried.then (hjournal _ _))

theorem State.settleListed_keeps (ties : Ties) (a : Adjudication) : StepKeeps 0 s (s.settleListed ties a) :=
  (s.removeAdj_keeps _).then (State.settle_keeps _ _ _)

/-- The new adjudication of a delivery is as full as the lists allow (R125, R127). -/
theorem State.holds_newAdjudication (trigger : Trigger) (d : Direction) (a b : Stamp) :
    s.Holds (s.newAdjudication trigger d a b) where
  few _ := by
    rw [State.newAdjudication, List.length_map]
    exact keepLargest_length _ 24 _
  distinct k := List.pairwise_map.2 (keepLargest_distinct _ _ (k.records.filter _))

/-- The counter moves on, and nothing else. -/
theorem State.skipCall_keeps : StepKeeps 1 s (s.withAdj { s.adj with nextCall := s.adj.nextCall + 1 }) where
  capacity k := ⟨k.records, k.queue, k.adjudications, k.candidates, k.claims, k.carried, k.journal⟩
  distinct k := ⟨k.records, k.candidates, k.claims, k.carried⟩
  table := id
  ids _ k := k.skip

/-- An adjudication joins what stays of the list, which has room, under the id of the counter. -/
theorem State.joinList_keeps {w : Adjudication} {l : List Adjudication} (sub : l.Sublist s.adj.list)
    (room : s.WithinCapacity → l.length < 4) (hw : s.Holds w) (hid : w.callId = s.adj.nextCall) :
    StepKeeps 1 s (s.withAdj { s.adj with list := l ++ [w], nextCall := s.adj.nextCall + 1 }) := by
  have hold : ∀ a ∈ l ++ [w], s.Holds a := fun a ha => by
    obtain ha | ha := List.mem_append.1 ha
    · exact State.holds_of_mem (sub.subset ha)
    · exact List.mem_singleton.1 ha ▸ hw
  exact {
    capacity k := ⟨k.records, k.queue, by simpa using room k, fun a ha => (hold a ha).few k, k.claims, k.carried, k.journal⟩
    distinct k := ⟨k.records, fun a ha => (hold a ha).distinct k, k.claims, k.carried⟩
    table := id
    ids _ k := (k.of_sublist (b := { s.adj with list := l }) (sub.map _) rfl).join hid }

/-- An offer neither reads nor changes the adjudicator. -/
theorem State.offer_withAdj (b : Adjudicator) (n : Notice) : (s.withAdj b).offer n = (s.offer n).withAdj b :=
  (apply_ite (fun t : State => t.withAdj b) (s.line.tx = .off) s (s.withLine (s.line.offer (.fresh n)))).symm

theorem State.offerAll_withAdj (b : Adjudicator) (ns : List Notice) : (s.withAdj b).offerAll ns = (s.offerAll ns).withAdj b := by
  unfold State.offerAll
  induction ns generalizing s with
  | nil => rfl
  | cons n ns ih => rw [List.foldl_cons, State.offer_withAdj, ih, List.foldl_cons]

/-- A VERDICT is given the same whatever the list and the counter are. -/
theorem State.giveVerdict_withAdj (ties : Ties) (w : Adjudication) (l : List Adjudication) (c : Byte) :
    (s.withAdj { s.adj with list := l, nextCall := c }).giveVerdict ties w =
      (s.giveVerdict ties w).withAdj { (s.giveVerdict ties w).adj with list := l, nextCall := c } := by
  have hadj : (s.offerAll w.verdicts).adj = s.adj := (s.offerAll_frame _).blocks .adj (by simp)
  unfold State.giveVerdict
  rw [State.offerAll_withAdj]
  simp only [State.withAdj_adj, State.withSightings_adj, hadj]
  rfl

/-- A VERDICT leaves the list. -/
theorem State.giveVerdict_list (ties : Ties) (w : Adjudication) : (s.giveVerdict ties w).adj.list = s.adj.list := by
  have hadj : (s.offerAll w.verdicts).adj = s.adj := (s.offerAll_frame _).blocks .adj (by simp)
  have hlist := congrArg Adjudicator.list hadj
  exact hlist

/-- The outcome of a weighing at the opening, once its VERDICT is given, takes its place in the list, settles or makes another one settle
(R128, R129). -/
theorem State.enterWeighed_keeps (ties : Ties) {w : Adjudication} (hw : s.Holds w) (hid : w.callId = s.adj.nextCall) :
    StepKeeps 1 s (((s.withAdj { s.adj with nextCall := s.adj.nextCall + 1 }).giveVerdict ties w).enterWeighed ties w) := by
  have hlist := (s.withAdj { s.adj with nextCall := s.adj.nextCall + 1 }).giveVerdict_list ties w
  have hjoin : ∀ l, ((s.withAdj { s.adj with nextCall := s.adj.nextCall + 1 }).giveVerdict ties w).withList (l ++ [w]) =
      (s.withAdj { s.adj with list := l ++ [w], nextCall := s.adj.nextCall + 1 }).giveVerdict ties w := fun l => by
    rw [s.giveVerdict_withAdj ties w (l ++ [w]), s.giveVerdict_withAdj ties w s.adj.list]
    rfl
  unfold State.enterWeighed
  rw [hlist, State.withAdj_adj, hjoin]
  refine .ite (fun hroom => ?_) (fun _ => ?_)
  · exact (s.joinList_keeps (.refl _) (fun _ => hroom) hw hid).andThen (State.giveVerdict_keeps _ _ _)
  · split
    case h_1 old hold =>
      have hlt := removeAdj_length_lt (List.mem_of_find?_eq_some hold)
      rw [hjoin]
      exact ((s.joinList_keeps List.filter_sublist (fun k => hlt.trans_le k.adjudications) hw hid).andThen
        (State.giveVerdict_keeps _ _ _)).andThen (State.settle_keeps _ _ _)
    case h_2 => exact (s.skipCall_keeps.andThen (State.giveVerdict_keeps _ _ _)).andThen (State.settle_keeps _ _ _)

theorem State.openAdjudication_keeps (ties : Ties) (t : Trigger) (d : Direction) (a b : Stamp) :
    StepKeeps 1 s (s.openAdjudication ties t d a b) := by
  have hnew := s.holds_newAdjudication t d a b
  refine .ite (fun _ => (StepKeeps.refl s).mono (Nat.zero_le 1)) (fun _ => ?_)
  refine StepKeeps.andThen (.ite (fun _ => ?_) (fun hcall => ?_)) (State.finishOffers_keeps _ _)
  · refine .ite (fun _ => s.skipCall_keeps) (fun _ => s.enterWeighed_keeps ties (hnew.weigh _) rfl)
  · have hroom : s.adj.list.length < 4 := Nat.lt_of_not_le fun hfull =>
      hcall (Bool.or_eq_true_iff.2 (.inr (decide_eq_true hfull)))
    exact (s.joinList_keeps (.refl _) (fun _ => hroom) hnew rfl).andThen (State.offer_keeps _ _)

theorem State.deliverFade_keeps (ties : Ties) (r : Record) : StepKeeps 1 s (s.deliverFade ties r) :=
  s.openAdjudication_keeps _ _ _ _ _

theorem State.deliverPassage_keeps (d : Direction) (a b : Stamp) : StepKeeps 1 s (s.deliverPassage d a b) :=
  s.openAdjudication_keeps _ _ _ _ _

end Operations

end Sys2Proof.Machine
end

section
/-! CERTIFICATE. Every step keeps the bounds of the lists, their distinct serials and call ids, and the sighting table (R46, R55, R63,
R111, R125, R135, R143, R151, R173): the commands one after another, each as the works that it calls. -/

namespace Sys2Proof.Machine

/-! ### The row line -/

section Line

variable (s : State)

theorem State.toMoment_keeps (m : Nat) : StepKeeps 0 s (s.toMoment m) := .of_quiet (s.toMoment_frame m) (by decide)
theorem State.waitBits_keeps (n : Nat) : StepKeeps 0 s (s.waitBits n) := .of_quiet (s.waitBits_frame n) (by decide)
theorem State.toOffset_keeps (o : Nat) : StepKeeps 0 s (s.toOffset o) := .of_quiet (s.toOffset_frame o) (by decide)
theorem State.withCadence_keeps (c : Cadence) : StepKeeps 0 s (s.withCadence c) := .of_quiet (s.withCadence_frame c) (by decide)

/-- The row line with the same queue. -/
theorem State.sameQueue_keeps {l : RowLine} (h : l.queue = s.line.queue) : StepKeeps 0 s (s.withLine l) :=
  s.withLine_keeps (by rw [h]; exact id)

theorem State.dropAssembly_keeps : StepKeeps 0 s s.dropAssembly := .of_frame s.dropAssembly_frame (by decide) id

@[simp] theorem RowLine.takeEdge_queue (l : RowLine) (e : Edge) : (l.takeEdge e).queue = l.queue := by
  unfold RowLine.takeEdge
  split <;> rfl

theorem State.takeEdge_keeps (e : Edge) : StepKeeps 0 s (s.takeEdge e) :=
  .of_frame (s.takeEdge_frame e) (by decide) (by simp [State.takeEdge])

theorem State.takeEdges_keeps (gap blind : Nat) : ∀ (edges : List Edge) (s : State),
    StepKeeps 0 s (s.takeEdges gap blind edges)
  | [], s => s.sameQueue_keeps rfl
  | e :: es, s => .ite (fun _ => (s.takeEdge_keeps e).then (State.takeEdges_keeps gap blind es _))
      (fun _ => s.sameQueue_keeps rfl)

theorem State.readEdges_keeps (gap blind : Nat) : StepKeeps 0 s (s.readEdges gap blind) :=
  .ite (fun _ => .refl s) (fun _ => State.takeEdges_keeps _ _ _ _)

theorem State.startLead_keeps : StepKeeps 0 s s.startLead := .ite (fun _ => s.sameQueue_keeps rfl) (fun _ => .refl s)

theorem State.awaitLead_keeps : StepKeeps 0 s s.awaitLead := by
  unfold State.awaitLead
  split
  · exact s.sameQueue_keeps rfl
  · exact .refl s

theorem RowLine.endTransmission_length (l : RowLine) (clock : Nat) :
    (l.endTransmission clock).queue.length ≤ l.queue.length := List.length_filter_le _ _

theorem State.loseMark_keeps : StepKeeps 0 s s.loseMark :=
  (s.toMoment_keeps _).then ((State.withLine_keeps _ (RowLine.endTransmission_length _ _).trans).then
    (State.withCadence_keeps _ _))

theorem State.takeBreak_keeps : StepKeeps 0 s s.takeBreak := .of_frame s.takeBreak_frame (by decide) id

theorem State.endOwnBreak_keeps (m : Nat) : StepKeeps 0 s (s.endOwnBreak m) :=
  .ite (fun _ => (s.toMoment_keeps _).then ((State.takeBreak_keeps _).then (State.awaitLead_keeps _)))
    (fun _ => s.loseMark_keeps.then ((State.toMoment_keeps _ _).then (State.takeBreak_keeps _)))

theorem State.beginMark_keeps : StepKeeps 0 s s.beginMark :=
  (s.withLine_keeps (RowLine.offer_length s.line _)).then ((State.sameQueue_keeps _ (by rfl)).then (State.withCadence_keeps _ _))

theorem State.collide_keeps (q : Queued) : StepKeeps 0 s (s.collide q) := by
  have hline : StepKeeps 0 s (s.withLine { s.line with
      tx := .waiting, sending := [], backoff := true, idleFrom := s.cadence.clock, lowFrom := some s.cadence.clock
      rx := s.line.rx.notOwn
      queue := s.line.queue.filterMap (fun x => if x.inTransmission then collideEntry x else some x)
      dropped := s.line.dropped ++ (collisionDrop q).toList }) :=
    s.withLine_keeps (List.length_filterMap_le _ _).trans
  exact .ite (fun _ => hline.then (State.withCadence_keeps _ _)) (fun _ => hline)

theorem State.sentReport_keeps (n : Notice) : StepKeeps 0 s (s.sentReport n) := by
  unfold State.sentReport
  split
  · exact s.startDeadline_keeps _
  · exact s.startHold_keeps _
  · exact s.withCadence_keeps _
  · exact .refl s

theorem State.discardOwn_keeps : StepKeeps 0 s s.discardOwn := by
  unfold State.discardOwn
  split
  · exact s.dropAssembly_keeps
  · exact .refl s

theorem State.beginAssembly_keeps (b : Byte) : StepKeeps 0 s (s.beginAssembly b) :=
  .of_frame (s.beginAssembly_frame b) (by decide) id

theorem State.takeCharacter_keeps (b : Byte) : StepKeeps 0 s (s.takeCharacter b) := by
  unfold State.takeCharacter
  split
  · exact .ite (fun _ => s.dropAssembly_keeps) (fun _ => s.sameQueue_keeps rfl)
  · exact .refl s
  · exact .refl s

theorem State.beginNotice_keeps (i : Nat) (n : Notice) : StepKeeps 0 s (s.beginNotice i n) :=
  s.withLine_keeps (by simp [startAt])

theorem State.beginListening_keeps (h : Bool) : StepKeeps 0 s (s.beginListening h) :=
  .of_frame (s.beginListening_frame h) (by decide) id

theorem State.finishConfig_keeps (i : Option Settings) (acts : List PortAct) : StepKeeps 0 s (s.finishConfig i acts) :=
  .of_frame (s.finishConfig_frame i acts) (by decide) id

/-! ### Frame starts and the adoption of a CADENCE -/

@[simp] theorem Adjudication.countDown_callId (a : Adjudication) : a.countDown.callId = a.callId := by
  unfold Adjudication.countDown
  split <;> rfl

@[simp] theorem Adjudication.countDown_candidates (a : Adjudication) : a.countDown.candidates = a.candidates := by
  unfold Adjudication.countDown
  split <;> rfl

/-- The adjudicator's countdowns (R130, R144, R145). -/
theorem State.countAdj_keeps : StepKeeps 0 s (s.withAdj { s.adj with
    list := s.adj.list.map Adjudication.countDown, claims := countClaims s.adj.claims }) :=
  (s.mapList_keeps Adjudication.countDown_callId (fun a => by rw [a.countDown_candidates])).then
    (State.withClaims_keeps (s.withList (s.adj.list.map Adjudication.countDown)) (countClaims_length _).trans countClaims_distinct)

theorem State.frameStartEvent_keeps (st : Stamp) (o a : Nat) (m : Bool) (v : StatusView) :
    StepKeeps 0 s (s.frameStartEvent st o a m v) := by
  unfold State.frameStartEvent
  refine .then ?_ (.ite (fun _ => State.offer_keeps _ _) (fun _ => .refl _))
  refine .then ?_ (State.withAlarm_keeps _ (by simp [ageJournal]))
  refine .then ?_ (State.withCarried_keeps _ (countGraces_length _).trans countGraces_distinct)
  refine .then ?_ (State.countAdj_keeps _)
  refine .then ?_ (.ite (fun _ => .of_quiet (State.withNeighbours_frame _ _) (by decide)) (fun _ => .refl _))
  refine .then ?_ (.of_quiet (State.withLane_frame _ _) (by decide))
  refine .then ?_ (State.withSightings_keeps _ (limitFirstStamps_kept _ _))
  exact (s.withCadence_keeps _).then (.of_quiet (State.withField_frame _ _) (by decide))

theorem State.joinAt_keeps (n : BitVec 16) (o : Nat) (m : Bool) : StepKeeps 0 s (s.joinAt n o m) := by
  unfold State.joinAt
  refine .then ?_ (.ite (fun _ => .refl _) (fun _ => .of_quiet (State.raiseRequest_frame _ _) (by decide)))
  refine .then ?_ (State.frameStartEvent_keeps _ _ _ _ _ _)
  refine .then ?_ (.of_quiet (State.withLane_frame _ _) (by decide))
  exact (s.withCadence_keeps _).then (.of_quiet (State.withStartup_frame _ _) (by decide))

theorem State.numberChanged_keeps : StepKeeps 0 s s.numberChanged := by
  unfold State.numberChanged
  refine .then ?_ (.of_quiet (State.withLane_frame _ _) (by decide))
  refine .then ?_ (State.withSightings_keeps _ (.nil _))
  refine .then ?_ (State.withClaims_keeps _ (by simp) (by simp))
  exact s.abandonAll_keeps.then (State.withdraw_keeps _ _)

theorem State.phaseAction_keeps (b : PendingBreak) (n m : BitVec 16) (d : Byte) (e dd : Int) :
    StepKeeps 0 s (s.phaseAction b n m d e dd) :=
  .ite (fun _ => s.withCadence_keeps _) fun _ => .ite
    (fun _ => .ite (fun _ => s.frameStartEvent_keeps _ _ _ _ _) (fun _ => s.withCadence_keeps _))
    (fun _ => (StepKeeps.of_quiet (s.withField_frame _) (by decide)).then (State.frameStartEvent_keeps _ _ _ _ _ _))

theorem State.judgeCadence_keeps (b : PendingBreak) (n : BitVec 16) (d : Byte) : StepKeeps 0 s (s.judgeCadence b n d) := by
  have hphase := fun e dd m => (s.withCadence_keeps
    { s.cadence with lastQualifying := some s.freeRun, selfLed := false }).then (State.phaseAction_keeps _ b n m d e dd)
  exact .ite (fun _ => .ite (fun _ => hphase _ _ _) (fun _ => (hphase _ _ _).then (State.numberChanged_keeps _)))
    (fun _ => .refl s)

theorem State.adoptListening_keeps (b : PendingBreak) (n : BitVec 16) (d : Byte) :
    StepKeeps 0 s (s.adoptListening b n d) := by
  unfold State.adoptListening
  refine .then ?_ (State.joinAt_keeps _ _ _ _)
  exact .ite (fun _ => s.withCadence_keeps _) (fun _ => (s.withCadence_keeps _).then (State.numberChanged_keeps _))

theorem State.hearCadence_keeps (n : BitVec 16) (d : Byte) : StepKeeps 0 s (s.hearCadence n d) := by
  unfold State.hearCadence
  split
  · exact s.adoptListening_keeps _ _ _
  · exact (s.withCadence_keeps _).then (State.judgeCadence_keeps _ _ _ _)
  · exact s.withCadence_keeps _

/-! ### Notices heard -/

theorem State.hearSender_keeps (p : Nat) : StepKeeps 0 s (s.hearSender p) := by
  have hheard : StepKeeps 0 s (s.hearStation p) := .of_quiet (s.hearStation_frame p) (by decide)
  have hclash : ∀ u : State, StepKeeps 0 u u.clashTrigger := fun u => by
    have hset : StepKeeps 0 u (u.withNeighbours { u.neighbours with clash := true, clashCount := 0 }) :=
      .of_quiet (u.withNeighbours_frame _) (by decide)
    exact .ite (fun _ => hset) (fun _ => hset.then ((State.abandonAll_keeps _).then (State.withdraw_keeps _ _)))
  exact .ite (fun _ => hheard.then (hclash _)) (fun _ => hheard)

theorem State.takeNotice_keeps (p : Nat) : StepKeeps 0 s (s.takeNotice p) :=
  (s.sameQueue_keeps (by rfl)).then (State.hearSender_keeps _ _)

theorem State.takeOther_keeps (p : Nat) : StepKeeps 0 s (s.takeOther p) := s.dropAssembly_keeps.then (State.hearSender_keeps _ _)

theorem State.takeEvidence_keeps (i : Byte) (p : BitVec 4) (f : Bool) (es : List EvidenceEntry) :
    StepKeeps 0 s (s.takeEvidence i p f es) := by
  unfold State.takeEvidence
  split
  case h_1 a ha =>
    have hmerged := (State.holds_of_mem (List.mem_of_find?_eq_some ha)).mergePart p f es
    have hlisted := s.replaceAdj_keeps hmerged
    refine .ite (fun _ => hlisted.then (State.weighListed_keeps _ _ (State.holds_of_mem ?_))) (fun _ => hlisted)
    exact List.mem_map.2 ⟨a, List.mem_of_find?_eq_some ha, if_pos rfl⟩
  case h_2 => exact .refl s

theorem State.takeVerdict_keeps (i l : Byte) (es : List VerdictEntry) : StepKeeps 0 s (s.takeVerdict i l es) := by
  refine (s.withSightings_keeps (resetRecords_kept s.stamp.next (es.map VerdictEntry.serial) _)).then ?_
  refine StepKeeps.then (State.mapList_keeps _ (f := fun a => a.contest l.toNat es) ?_ ?_) (State.addClaims_keeps _ _)
  · intro a
    unfold Adjudication.contest
    split <;> rfl
  · intro a
    unfold Adjudication.contest
    split
    · simp only [List.map_map]
      exact List.map_congr_left fun c _ => Candidate.contestAll_serial _ _ es c
    · rfl

/-! ### Slots and the filter tick -/

/-- Every amplitude a channel converts is in range (R25). -/
theorem Channel.run_amplitude (conversion : Nat) (ticks : List FaceTick) : (Channel.run conversion ticks).amplitude.getD 0 ≤ 1023 := by
  have htick : ∀ (c : Channel) (x : FaceTick × Nat), c.amplitude.getD 0 ≤ 1023 →
      (c.tick conversion x.1 x.2).amplitude.getD 0 ≤ 1023 := fun c x h => by
    unfold Channel.tick
    split
    · exact Nat.zero_le _
    · split
      · exact h
      · split
        · exact Nat.min_le_left _ _
        · exact h
  have hfold : ∀ (l : List (FaceTick × Nat)) (c : Channel), c.amplitude.getD 0 ≤ 1023 →
      (l.foldl (fun c x => c.tick conversion x.1 x.2) c).amplitude.getD 0 ≤ 1023 := fun l => by
    induction l with
    | nil => exact fun _ h => h
    | cons x l ih => exact fun c h => ih _ (htick c x h)
  exact hfold _ _ (Nat.zero_le _)

theorem Face.amplitude_run_le (f : Face) (conversion : Nat) (ticks : List FaceTick) :
    f.amplitude (Channel.run conversion ticks) ≤ 1023 := by
  unfold Face.amplitude
  split
  · exact Nat.zero_le _
  · exact Channel.run_amplitude conversion ticks

theorem State.takeSlot_keeps (w e : Nat) (west east : List FaceTick) :
    StepKeeps 0 s (s.takeSlot (Channel.run w west) (Channel.run e east)) := by
  refine .ite (fun _ => .refl s) (fun _ => ?_)
  split
  · exact s.withSightings_keeps (applyReply_kept _ ⟨Face.amplitude_run_le _ _ _, Face.amplitude_run_le _ _ _⟩ _)
  · exact .refl s
  · exact .refl s

theorem State.takePassage_keeps (c : Option Completed) : StepKeeps 1 s (s.takePassage c) := by
  unfold State.takePassage
  split
  · exact .ite (fun _ => s.deliverPassage_keeps _ _ _) (fun _ => (StepKeeps.refl s).mono (Nat.zero_le 1))
  · exact (StepKeeps.refl s).mono (Nat.zero_le 1)

theorem State.takeClear_keeps (b : Bool) : StepKeeps 0 s (s.takeClear b) :=
  .ite (fun _ => s.returnToClear_keeps) (fun _ => .refl s)

theorem State.keyMoved_keeps (a b : KeyPosition) : StepKeeps 0 s (s.keyMoved a b) := by
  have hack : StepKeeps 0 s s.keyToAck :=
    .ite (fun _ => s.acknowledge_keeps.then (State.offer_keeps _ _)) (fun _ => s.acknowledge_keeps)
  exact StepKeeps.then (.ite (fun _ => hack) (fun _ => .refl s)) (.of_quiet (State.keyRequest_frame _ _ _) (by decide))

theorem State.sampleKey_keeps (r : Option KeyPosition) : StepKeeps 0 s (s.sampleKey r) := by
  have hstartup : ∀ b, StepKeeps 0 s (s.withStartup b) := fun b => .of_quiet (s.withStartup_frame b) (by decide)
  refine .ite (fun _ => .ite (fun _ => ?_) (fun _ => ?_)) (fun _ => .refl s)
  · unfold State.nextKey
    split
    · exact hstartup _
    · exact .ite (fun _ => hstartup _) (fun _ => .ite (fun _ => (hstartup _).then (State.keyMoved_keeps _ _ _))
        (fun _ => hstartup _))
  · exact (hstartup _).then (.ite (fun _ => .of_quiet (State.raiseRequest_frame _ _) (by decide)) (fun _ => .refl _))

theorem State.keyAt_keeps (p q : KeyPlace) (r : Option KeyPosition) : StepKeeps 0 s (s.keyAt p q r) :=
  .ite (fun _ => s.sampleKey_keeps r) (fun _ => .refl s)

theorem State.takeLaneEvent_keeps (ev : LaneEvent) (x : TickOrder) (r : Option KeyPosition) :
    StepKeeps 1 s (s.takeLaneEvent ev x r) :=
  .ite (fun _ => ((s.takeClear_keeps _).then (State.keyAt_keeps _ _ _ _)).then (State.takePassage_keeps _ _))
    (fun _ => ((s.takePassage_keeps _).andThen (State.keyAt_keeps _ _ _ _)).andThen (State.takeClear_keeps _ _))

theorem State.sampleInputs_keeps (i o : Bool) (x : TickOrder) (r : Option KeyPosition) :
    StepKeeps 1 s (s.sampleInputs i o x r) :=
  ((s.keyAt_keeps _ _ _).then ((StepKeeps.of_quiet (State.withLane_frame _ _) (by decide)).then
    (State.takeLaneEvent_keeps _ _ _ _))).andThen (State.keyAt_keeps _ _ _ _)

end Line

/-! ### The commands -/

/-- The command answers a next state that keeps what the state before has kept, using at most `n` call ids. -/
def CommandKeeps (n : Nat) (c : Instr) (s : State) : Prop := ∃ t, exec c s = .next t ∧ StepKeeps n s t

/-- A command that reaches neither the lists nor the row line. -/
theorem Moves.keeps {bs : List Block} {c : Instr} {s : State} (h : Moves bs c s)
    (hb : bs ⊆ [.cadence, .field, .sampler, .lane, .neighbours, .startup]) : CommandKeeps 0 c s := by
  obtain ⟨t, hexec, hframe⟩ := h
  exact ⟨t, hexec, .of_quiet hframe hb⟩

section Commands

variable (s : State)

theorem exec_configTransferComplete_keeps (w : Nat) (b : List Byte) : CommandKeeps 0 (.configTransferComplete w b) s :=
  ⟨_, rfl, .ite (fun _ => .ite (fun _ => (s.waitBits_keeps w).then (State.finishConfig_keeps _ _ _))
    (fun _ => (s.toMoment_keeps _).then (State.finishConfig_keeps _ _ _))) (fun _ => .refl s)⟩

theorem exec_configNoResponse_keeps (k : NoResponse) : CommandKeeps 0 (.configNoResponse k) s :=
  ⟨_, rfl, .ite (fun _ => (StepKeeps.of_quiet (s.toNoResponse_frame k) (by decide)).then (State.finishConfig_keeps _ _ _))
    (fun _ => .refl s)⟩

/-- The lists are empty in a hold but for the carried-in list and the journal, which are kept (R183). -/
theorem State.enterHold_keeps (r : ResumeTo) : StepKeeps 0 s (s.enterHold r) where
  capacity h := ⟨by simp [State.enterHold], by simp [State.enterHold, RowLine.reset], by simp [State.enterHold],
    by simp [State.enterHold], by simp [State.enterHold], h.carried, h.journal⟩
  distinct h := ⟨.nil, by simp [State.enterHold], .nil, h.carried⟩
  table _ := .nil
  ids m h := (by rwa [Nat.zero_add] at h : s.adj.IdsFree m).of_sublist (List.nil_sublist _) rfl

theorem exec_supplyHold_keeps (w : Nat) : CommandKeeps 0 (.supplyHold w) s := by
  refine ⟨_, rfl, ?_⟩
  split
  · exact (s.waitBits_keeps w).then (State.enterHold_keeps _ _)
  · exact .ite (fun _ => .of_quiet (s.withStartup_frame _) (by decide)) (fun _ => .refl s)

theorem exec_holdResume_keeps : CommandKeeps 0 .holdResume s := by
  have hresume : StepKeeps 0 s s.resume := .of_quiet s.resume_frame (by decide)
  have hstate : ∀ b, StepKeeps 0 s.resume (s.resume.withStartup b) := fun b => .of_quiet (State.withStartup_frame _ b) (by decide)
  refine ⟨_, rfl, .ite (fun _ => ?_) (fun _ => .refl s)⟩
  split
  · exact hresume.then (hstate _)
  · exact hresume.then (hstate _)
  · exact hresume.then (State.beginListening_keeps _ _)
  · exact .refl s

theorem exec_listeningExpiry_keeps : CommandKeeps 0 .listeningExpiry s :=
  ⟨_, rfl, .ite (fun _ => (s.toMoment_keeps _).then ((State.withCadence_keeps _ _).then (State.joinAt_keeps _ _ _ _)))
    (fun _ => .refl s)⟩

theorem exec_frameStart_keeps (v : StatusView) : CommandKeeps 0 (.frameStart v) s :=
  ⟨_, rfl, .ite (fun _ => (s.toOffset_keeps _).then ((State.frameStartEvent_keeps _ _ _ _ _ _).then
    (State.finishOffers_keeps _ _))) (fun _ => .refl s)⟩

theorem exec_markSend_keeps : CommandKeeps 0 .markSend s :=
  ⟨_, rfl, (s.readEdges_keeps 12 Config.unitsPerBit).then (.ite (fun _ => .ite
    (fun _ => (State.toMoment_keeps _ _).then ((State.beginMark_keeps _).then (State.finishOffers_keeps _ _)))
    (fun _ => .refl _)) (fun _ => .refl _))⟩

theorem exec_breakReleaseTimeout_keeps : CommandKeeps 0 .breakReleaseTimeout s :=
  ⟨_, rfl, .ite (fun _ => s.loseMark_keeps) (fun _ => .refl s)⟩

theorem exec_slotEnd_keeps (j : Nat) (w e : List Nat) (x y : List (List Bool)) : CommandKeeps 0 (.slotEnd j w e x y) s :=
  ⟨_, rfl, .ite (fun _ => (s.toOffset_keeps _).then ((State.withCadence_keeps _ _).then (State.takeSlot_keeps _ _ _ _ _)))
    (fun _ => .refl s)⟩

/-- Each record that fades opens at most one adjudication (R58, R87). -/
theorem exec_recordFade_keeps (x : Ties) : CommandKeeps s.sightings.length (.recordFade x) s := by
  have hfade := s.withSightings_keeps (fadeRecords_kept s.stamp s.sightings)
  refine ⟨_, rfl, .ite (fun _ => ?_) (fun _ => hfade.mono (Nat.zero_le _))⟩
  refine (hfade.then (StepKeeps.foldl (fun u r => u.deliverFade_keeps x r) _ _)).mono ?_
  rw [Nat.mul_one]
  refine (List.length_filter_le _ _).trans ?_
  rw [fadingReports, List.length_map]
  exact List.length_filter_le _ _

theorem exec_recordAgeFree_keeps : CommandKeeps 0 .recordAgeFree s :=
  ⟨_, rfl, s.withSightings_keeps (freeRecords_kept _ _)⟩

theorem exec_strayMark_keeps : CommandKeeps 0 .strayMark s := ⟨_, rfl, s.withSightings_keeps (s.strayMarked_kept _)⟩

/-- A filter tick delivers at most one passage (R80). -/
theorem exec_filterTick_keeps (i o a k : Bool) (r : TickOrder) : CommandKeeps 1 (.filterTick i o a k r) s := by
  have htick : StepKeeps 0 s s.toFilterTick := .of_quiet s.toFilterTick_frame (by decide)
  exact ⟨_, rfl, .ite (fun _ => .ite
    (fun _ => htick.then ((State.sampleInputs_keeps _ _ _ _ _).andThen (State.finishOffers_keeps _ _)))
    (fun _ => htick.mono (Nat.zero_le 1))) (fun _ => (StepKeeps.refl s).mono (Nat.zero_le 1))⟩

theorem exec_breakRecognized_keeps (l : LowSpell) : CommandKeeps 0 (.breakRecognized l) s :=
  ⟨_, rfl, .ite (fun _ => .refl s) (fun _ => .ite (fun _ => s.endOwnBreak_keeps _) (fun _ => .ite
    (fun _ => (s.waitBits_keeps _).then ((State.startLead_keeps _).then (State.takeBreak_keeps _))) (fun _ => .refl s)))⟩

theorem exec_quietEnd_keeps : CommandKeeps 0 .quietEnd s := by
  refine ⟨_, rfl, ?_⟩
  split
  · exact (s.toMoment_keeps _).then (State.sameQueue_keeps _ (by rfl))
  · exact .refl s

theorem exec_framingError_keeps (l : LostCharacter) : CommandKeeps 0 (.framingError l) s :=
  ⟨_, rfl, .ite (fun _ => .refl s) (fun _ => (s.waitBits_keeps _).then ((State.dropAssembly_keeps _).then
    ((State.withCadence_keeps _ _).then (State.sameQueue_keeps _ (by rfl)))))⟩

theorem exec_receiverIdleTimeout_keeps : CommandKeeps 0 .receiverIdleTimeout s := by
  refine ⟨_, rfl, (s.readEdges_keeps 11 1).then ?_⟩
  dsimp only
  split
  · exact .ite (fun _ => .refl _) (fun _ => (State.toMoment_keeps _ _).then (State.dropAssembly_keeps _))
  · exact .refl _

theorem exec_noticeStart_keeps : CommandKeeps 0 .noticeStart s := by
  refine ⟨_, rfl, (s.readEdges_keeps s.idleGap Config.unitsPerBit).then (.ite (fun _ => ?_) (fun _ => .refl _))⟩
  split
  · exact (State.toMoment_keeps _ _).then (State.beginNotice_keeps _ _ _)
  · exact .refl _

theorem exec_collision_keeps (b : Nat) : CommandKeeps 0 (.collision b) s := by
  refine ⟨_, rfl, ?_⟩
  split
  · exact (s.toMoment_keeps _).then ((State.startLead_keeps _).then ((State.collide_keeps _ _).then
      (State.finishOffers_keeps _ _)))
  · exact .refl s

theorem exec_noticeSent_keeps : CommandKeeps 0 .noticeSent s := by
  refine ⟨_, rfl, ?_⟩
  split
  · refine .then ?_ (State.finishOffers_keeps _ _)
    refine .then ?_ (State.sentReport_keeps _ _)
    refine .then ?_ (State.discardOwn_keeps _)
    refine .then ?_ (State.withLine_keeps _ (fun h => (List.length_filter_le _ _).trans h))
    exact (s.toMoment_keeps _).then (State.startLead_keeps _)
  · exact .refl s

theorem exec_noticeInvalid_keeps : CommandKeeps 0 .noticeInvalid s := by
  refine ⟨_, rfl, ?_⟩
  split
  · exact .ite (fun _ => s.dropAssembly_keeps) (fun _ => .refl s)
  · exact .refl s
  · exact .refl s

theorem exec_receiveCadence_keeps : CommandKeeps 0 .receiveCadence s := by
  refine ⟨_, rfl, ?_⟩
  split
  · exact (s.takeNotice_keeps _).then ((State.hearCadence_keeps _ _ _).then (State.finishOffers_keeps _ _))
  · exact .refl s

theorem exec_receiveStatus_keeps : CommandKeeps 0 .receiveStatus s := by
  refine ⟨_, rfl, ?_⟩
  split
  · exact (s.takeOther_keeps _).then (.of_quiet (State.takeStatus_frame _ _ _ _ _) (by decide))
  · exact .refl s

theorem exec_receiveCall_keeps : CommandKeeps 0 .receiveCall s := by
  refine ⟨_, rfl, ?_⟩
  split
  · exact (s.takeOther_keeps _).then (.ite (fun _ => (State.offerAll_keeps _ _).then (State.finishOffers_keeps _ _))
      (fun _ => .refl _))
  · exact .refl s

theorem exec_receiveEvidence_keeps : CommandKeeps 0 .receiveEvidence s := by
  refine ⟨_, rfl, ?_⟩
  split
  · exact (s.takeOther_keeps _).then (.ite (fun _ => (State.takeEvidence_keeps _ _ _ _ _).then
      (State.finishOffers_keeps _ _)) (fun _ => .refl _))
  · exact .refl s

theorem exec_evidenceDeadline_keeps (x : Ties) : CommandKeeps 0 (.evidenceDeadline x) s := by
  have hweigh : ∀ (u : State) (i : Byte), StepKeeps 0 u (u.weighId x i) := fun u i => by
    unfold State.weighId
    split
    case h_1 a ha => exact u.weighListed_keeps x (State.holds_of_mem (List.mem_of_find?_eq_some ha))
    case h_2 => exact .refl u
  exact ⟨_, rfl, (StepKeeps.foldl_zero hweigh _ s).then (State.finishOffers_keeps _ _)⟩

theorem exec_receiveVerdict_keeps : CommandKeeps 0 .receiveVerdict s := by
  refine ⟨_, rfl, ?_⟩
  split
  · exact (s.takeOther_keeps _).then (State.takeVerdict_keeps _ _ _ _)
  · exact .refl s

theorem exec_holdExpiry_keeps (x : Ties) : CommandKeeps 0 (.holdExpiry x) s :=
  ⟨_, rfl, (StepKeeps.foldl_zero (fun u a => u.settleListed_keeps x a) _ s).then (State.finishOffers_keeps _ _)⟩

theorem exec_receiveSettlement_keeps : CommandKeeps 0 .receiveSettlement s := by
  refine ⟨_, rfl, ?_⟩
  split
  · exact (s.takeOther_keeps _).then (State.withCarried_keeps _ (applySettlement_length _ _) (applySettlement_distinct _ _))
  · exact .refl s

theorem exec_receiveAlarm_keeps : CommandKeeps 0 .receiveAlarm s := by
  refine ⟨_, rfl, ?_⟩
  split
  · exact (s.takeOther_keeps _).then (.of_quiet (State.takeAlarm_frame _ _ _ _ _) (by decide))
  · exact .refl s

theorem exec_receiveAck_keeps : CommandKeeps 0 .receiveAck s := by
  refine ⟨_, rfl, ?_⟩
  split
  · exact (s.takeOther_keeps _).then (.ite (fun _ => (State.acknowledge_keeps _).then (State.finishOffers_keeps _ _))
      (fun _ => .refl _))
  · exact .refl s

theorem exec_receiveJournalCall_keeps : CommandKeeps 0 .receiveJournalCall s := by
  refine ⟨_, rfl, ?_⟩
  split
  · exact (s.takeOther_keeps _).then (.ite (fun _ => (State.answerJournal_keeps _ _).then (State.finishOffers_keeps _ _))
      (fun _ => .refl _))
  · exact .refl s

theorem exec_receiveJournal_keeps : CommandKeeps 0 .receiveJournal s := by
  refine ⟨_, rfl, ?_⟩
  split
  · exact s.takeOther_keeps _
  · exact .refl s

theorem exec_claimExpiry_keeps : CommandKeeps 0 .claimExpiry s :=
  ⟨_, rfl, s.withClaims_keeps (List.length_filter_le _ _).trans (List.Pairwise.filter _)⟩

theorem exec_carriedInExpiry_keeps : CommandKeeps 0 .carriedInExpiry s :=
  ⟨_, rfl, s.withCarried_keeps (List.length_filter_le _ _).trans (List.Pairwise.filter _)⟩

theorem exec_characterReceived_keeps (w : Nat) (v : BitVec 10) (k : Bool) :
    CommandKeeps 0 (.characterReceived w v k) s := by
  refine ⟨_, rfl, .ite (fun _ => .refl s) (fun _ => ?_)⟩
  split
  · exact (s.waitBits_keeps _).then ((State.startLead_keeps _).then ((State.sameQueue_keeps _ (by rfl)).then
      (.ite (fun _ => State.beginAssembly_keeps _ _) (fun _ => State.takeCharacter_keeps _ _))))
  · exact .refl s
  · exact .refl s

end Commands

/-- Every list is empty, but for a journal no longer than before: what the resets leave. -/
theorem StepKeeps.of_emptied {s t : State} (records : t.sightings = []) (queue : t.line.queue = []) (adj : t.adj = .reset)
    (carried : t.carried = []) (journal : t.alarm.journal.length ≤ s.alarm.journal.length) (n : Nat) : StepKeeps n s t where
  capacity h := ⟨by simp [records], by simp [queue], by simp [adj, Adjudicator.reset], by simp [adj, Adjudicator.reset],
    by simp [adj, Adjudicator.reset], by simp [carried], journal.trans h.journal⟩
  distinct _ := ⟨by simp [records], by simp [adj, Adjudicator.reset], by simp [adj, Adjudicator.reset], by simp [carried]⟩
  table _ := records ▸ .nil
  ids m h := ⟨by have := h.few; omega, by simp [adj, Adjudicator.reset], by simp [adj, Adjudicator.reset]⟩

/-- Every command keeps the lists and the table; it uses at most one call id, or one for each record that may fade. -/
theorem exec_keeps (c : Instr) (s : State) : CommandKeeps (max 1 s.sightings.length) c s := by
  have within : ∀ {n c}, n ≤ max 1 s.sightings.length → CommandKeeps n c s → CommandKeeps (max 1 s.sightings.length) c s :=
    fun hn ⟨t, hexec, hkeeps⟩ => ⟨t, hexec, hkeeps.mono hn⟩
  have quietly : ∀ {c}, CommandKeeps 0 c s → CommandKeeps (max 1 s.sightings.length) c s := within (Nat.zero_le _)
  cases c with
  | powerOnReset => exact ⟨_, rfl, .of_emptied rfl rfl rfl rfl (Nat.zero_le _) _⟩
  | serviceReset => exact ⟨_, rfl, .of_emptied rfl rfl rfl rfl (by exact Nat.le_refl _) _⟩
  | resetEnd => exact quietly ((exec_resetEnd_moves s).keeps (by decide))
  | strapsSample p r => exact quietly ((exec_strapsSample_moves s p r).keeps (by decide))
  | configTransferComplete w b => exact quietly (exec_configTransferComplete_keeps s w b)
  | configNoResponse k => exact quietly (exec_configNoResponse_keeps s k)
  | supplyHold w => exact quietly (exec_supplyHold_keeps s w)
  | holdResume => exact quietly (exec_holdResume_keeps s)
  | listeningExpiry => exact quietly (exec_listeningExpiry_keeps s)
  | frameStart v => exact quietly (exec_frameStart_keeps s v)
  | markSend => exact quietly (exec_markSend_keeps s)
  | markAbandon => exact quietly ((exec_markAbandon_moves s).keeps (by decide))
  | breakReleaseTimeout => exact quietly (exec_breakReleaseTimeout_keeps s)
  | transmitWindowEnd => exact quietly ((exec_transmitWindowEnd_moves s).keeps (by decide))
  | slotEnd j w e x y => exact quietly (exec_slotEnd_keeps s j w e x y)
  | coilCheck w e => exact quietly ((exec_coilCheck_moves s w e).keeps (by decide))
  | recordFade x => exact within (Nat.le_max_right _ _) (exec_recordFade_keeps s x)
  | recordAgeFree => exact quietly (exec_recordAgeFree_keeps s)
  | strayMark => exact quietly (exec_strayMark_keeps s)
  | filterTick i o a k r => exact within (Nat.le_max_left _ _) (exec_filterTick_keeps s i o a k r)
  | beamStuck => exact quietly ((exec_beamStuck_moves s).keeps (by decide))
  | breakRecognized l => exact quietly (exec_breakRecognized_keeps s l)
  | quietEnd => exact quietly (exec_quietEnd_keeps s)
  | framingError l => exact quietly (exec_framingError_keeps s l)
  | receiverIdleTimeout => exact quietly (exec_receiverIdleTimeout_keeps s)
  | noticeStart => exact quietly (exec_noticeStart_keeps s)
  | collision b => exact quietly (exec_collision_keeps s b)
  | noticeSent => exact quietly (exec_noticeSent_keeps s)
  | noticeInvalid => exact quietly (exec_noticeInvalid_keeps s)
  | receiveCadence => exact quietly (exec_receiveCadence_keeps s)
  | receiveStatus => exact quietly (exec_receiveStatus_keeps s)
  | receiveCall => exact quietly (exec_receiveCall_keeps s)
  | receiveEvidence => exact quietly (exec_receiveEvidence_keeps s)
  | evidenceDeadline x => exact quietly (exec_evidenceDeadline_keeps s x)
  | receiveVerdict => exact quietly (exec_receiveVerdict_keeps s)
  | holdExpiry x => exact quietly (exec_holdExpiry_keeps s x)
  | receiveSettlement => exact quietly (exec_receiveSettlement_keeps s)
  | receiveAlarm => exact quietly (exec_receiveAlarm_keeps s)
  | receiveAck => exact quietly (exec_receiveAck_keeps s)
  | receiveJournalCall => exact quietly (exec_receiveJournalCall_keeps s)
  | receiveJournal => exact quietly (exec_receiveJournal_keeps s)
  | neighbourAbsent => exact quietly ((exec_neighbourAbsent_moves s).keeps (by decide))
  | lineSilent => exact quietly ((exec_lineSilent_moves s).keeps (by decide))
  | clashClear => exact quietly ((exec_clashClear_moves s).keeps (by decide))
  | claimExpiry => exact quietly (exec_claimExpiry_keeps s)
  | carriedInExpiry => exact quietly (exec_carriedInExpiry_keeps s)
  | characterReceived w v k => exact quietly (exec_characterReceived_keeps s w v k)

/-- So does every step: it runs the front command on the state with the rest of the queue. -/
theorem step_keeps {s t : State} (h : step s = .next t) : StepKeeps (max 1 s.sightings.length) s t := by
  unfold step at h
  split at h
  case h_1 =>
    obtain rfl := Host.Outcome.next.inj h
    exact (StepKeeps.refl s).mono (Nat.zero_le _)
  case h_2 c rest _ =>
    obtain ⟨u, hexec, hkeeps⟩ := exec_keeps c { s with pending := rest }
    obtain rfl := Host.Outcome.next.inj (hexec.symm.trans h)
    have hqueue : StepKeeps 0 s { s with pending := rest } := .of_same rfl id rfl rfl id
    exact hqueue.then hkeeps

/-- Settles O5: a step uses no more call ids than the table has records, at most 48. -/
theorem capacityKept : Obligations.CapacityKept := by
  unfold Obligations.CapacityKept
  refine ⟨fun s t h hstep => (step_keeps hstep).capacity h, fun s t h hstep => (step_keeps hstep).distinct h,
    fun s t hcap hids hahead hstep => ?_⟩
  have hkeeps := (step_keeps hstep).mono (show max 1 s.sightings.length ≤ 48 from max_le (by omega) hcap.records)
  exact (hkeeps.ids 0 ⟨by omega, hids, fun x hx k hk => hahead x hx k hk⟩).listed

/-- Settles O8: every step keeps the table. -/
theorem tableSoundKept : Obligations.TableSoundKept := by
  unfold Obligations.TableSoundKept
  exact fun s t h hstep => (step_keeps hstep).table h

end Sys2Proof.Machine
end

section
/-! SUPPORT. What the sighting table picks, orders and finds: the best of a list, the earliest record (R48), a list put in strict order, and
the table as the set of its records (R46). -/

namespace Sys2Proof.Machine

/-! ### Picking and ordering -/

section Order

variable {α : Type}

/-- The element that goes before every other one is the one picked. -/
theorem pickBest_eq {better : α → α → Bool} {x : α} : ∀ {l : List α}, x ∈ l →
    (∀ y ∈ l, y ≠ x → better x y = true ∧ better y x = false) → pickBest better l = some x
  | z :: zs, hx, best => by
    have hrest : ∀ y ∈ zs, y ≠ x → better x y = true ∧ better y x = false := fun y hy => best y (List.mem_cons_of_mem z hy)
    by_cases hin : x ∈ zs
    · rw [pickBest, pickBest_eq hin hrest]
      by_cases hz : z = x
      · simp [hz]
      · simp [(best z List.mem_cons_self hz).1]
    · obtain rfl : x = z := (List.mem_cons.1 hx).resolve_right hin
      rw [pickBest]
      split
      case h_1 => rfl
      case h_2 y hy =>
        have hmem := pickBest_mem better hy
        rw [(hrest y hmem (fun he => hin (he ▸ hmem))).2]
        rfl

/-- Two lists in strict order with the same elements are the same list. -/
theorem eq_of_strict_order {R : α → α → Prop} (asymm : ∀ a b, R a b → ¬R b a) {l m : List α} (hl : l.Pairwise R)
    (hm : m.Pairwise R) (same : ∀ x, x ∈ l ↔ x ∈ m) : l = m := by
  have nodup : ∀ {k : List α}, k.Pairwise R → k.Nodup := fun hk => hk.imp fun {a b} hab he => by
    subst he
    exact asymm a a hab hab
  have hperm : l.Perm m := (List.perm_ext_iff_of_nodup (nodup hl) (nodup hm)).2 same
  exact hperm.eq_of_pairwise (fun a b _ _ hab hba => absurd hba (asymm a b hab)) hl hm

theorem insertBy_pairwise {before : α → α → Bool} (trans : ∀ a b c, before a b = true → before b c = true → before a c = true)
    {x : α} : ∀ {l : List α}, l.Pairwise (fun a b => before a b = true) → (∀ y ∈ l, before x y = true ∨ before y x = true) →
      (insertBy before x l).Pairwise (fun a b => before a b = true)
  | [], _, _ => List.pairwise_singleton _ _
  | y :: ys, h, total => by
    obtain ⟨hy, hys⟩ := List.pairwise_cons.1 h
    unfold insertBy
    split
    case isTrue hxy =>
      refine List.pairwise_cons.2 ⟨fun z hz => ?_, h⟩
      obtain rfl | hz := List.mem_cons.1 hz
      · exact hxy
      · exact trans x y z hxy (hy z hz)
    case isFalse hxy =>
      have hyx := (total y List.mem_cons_self).resolve_left hxy
      refine List.pairwise_cons.2 ⟨fun z hz => ?_,
        insertBy_pairwise trans hys (fun z hz => total z (List.mem_cons_of_mem y hz))⟩
      obtain rfl | hz := (mem_insertBy before x z ys).1 hz
      · exact hyx
      · exact hy z hz

/-- A list any two elements of which are ordered is put in strict order. -/
theorem sortBy_pairwise {before : α → α → Bool} (trans : ∀ a b c, before a b = true → before b c = true → before a c = true) :
    ∀ {l : List α}, l.Pairwise (fun a b => before a b = true ∨ before b a = true) →
      (sortBy before l).Pairwise (fun a b => before a b = true)
  | [], _ => .nil
  | _ :: _, h => by
    obtain ⟨hx, hxs⟩ := List.pairwise_cons.1 h
    exact insertBy_pairwise trans (sortBy_pairwise trans hxs) (fun y hy => hx y ((mem_sortBy before y _).1 hy))

end Order

/-! ### The earliest record (R48) -/

theorem earlier_iff (stampOf : Record → Stamp) (now : Stamp) (a b : Record) :
    earlier stampOf now a b = true ↔ stampDiff (stampOf b) now < stampDiff (stampOf a) now ∨
      (stampDiff (stampOf b) now = stampDiff (stampOf a) now ∧ a.serial.toNat < b.serial.toNat) := by
  simp only [earlier, Bool.or_eq_true, Bool.and_eq_true, decide_eq_true_eq, beq_iff_eq]
  exact or_congr_right (and_congr_left' eq_comm)

theorem earlier_trans {stampOf : Record → Stamp} {now : Stamp} (a b c : Record) (h : earlier stampOf now a b = true)
    (k : earlier stampOf now b c = true) : earlier stampOf now a c = true := by
  rw [earlier_iff] at *
  omega

theorem earlier_asymm {stampOf : Record → Stamp} {now : Stamp} (a b : Record) (h : earlier stampOf now a b = true) :
    ¬earlier stampOf now b a = true := by
  rw [earlier_iff] at *
  omega

/-- Of two records with different serials one is the earlier. -/
theorem earlier_total {stampOf : Record → Stamp} {now : Stamp} {a b : Record} (h : a.serial.toNat ≠ b.serial.toNat) :
    earlier stampOf now a b = true ∨ earlier stampOf now b a = true := by
  rw [earlier_iff, earlier_iff]
  omega

/-- The record that is earlier than every other one of its kind is the earliest. -/
theorem earliest_eq {p : Record → Bool} {stampOf : Record → Stamp} {now : Stamp} {table : List Record} {out : Record}
    (hout : out ∈ table) (hp : p out = true)
    (first : ∀ x ∈ table, p x = true → x ≠ out → stampDiff (stampOf x) now < stampDiff (stampOf out) now ∨
      (stampDiff (stampOf x) now = stampDiff (stampOf out) now ∧ out.serial.toNat < x.serial.toNat)) :
    earliest p stampOf now table = some out := by
  refine pickBest_eq (List.mem_filter.2 ⟨hout, hp⟩) (fun y hy hne => ?_)
  obtain ⟨hy, hpy⟩ := List.mem_filter.1 hy
  have hearlier := (earlier_iff stampOf now out y).2 (first y hy hpy hne)
  exact ⟨hearlier, Bool.eq_false_iff.2 (earlier_asymm out y hearlier)⟩

theorem earliest_none {p : Record → Bool} {stampOf : Record → Stamp} {now : Stamp} {table : List Record}
    (h : ∀ x ∈ table, p x = false) : earliest p stampOf now table = none := by
  rw [earliest, List.filter_eq_nil_iff.2 (fun x hx => Bool.eq_false_iff.1 (h x hx))]
  rfl

/-! ### The table by its records -/

/-- In a sound table a serial names one record. -/
theorem TableSound.serial_eq {t : List Record} (h : TableSound t) {a b : Record} (ha : a ∈ t) (hb : b ∈ t) :
    a.serial = b.serial ↔ a = b :=
  ⟨eq_of_key h.distinct ha hb, congrArg Record.serial⟩

/-- Two sound tables with the same records are the same. -/
theorem TableSound.ext {t u : List Record} (ht : TableSound t) (hu : TableSound u) (same : ∀ x, x ∈ t ↔ x ∈ u) : t = u :=
  eq_of_strict_order (fun _ _ h => Nat.lt_asymm h) ht.order hu.order same

/-- Freeing the serial of a record frees that record (R50, R59). -/
theorem TableSound.mem_freeSerial {t : List Record} (h : TableSound t) {out : Record} (hout : out ∈ t) (x : Record) :
    x ∈ freeSerial out.serial t ↔ x ∈ t ∧ x ≠ out := by
  simp only [freeSerial, List.mem_filter, decide_eq_true_eq]
  exact and_congr_right fun hx => not_congr (h.serial_eq hx hout)

@[simp] theorem mem_insertRecord (rec x : Record) (t : List Record) : x ∈ insertRecord rec t ↔ x = rec ∨ x ∈ t :=
  mem_insertBy _ _ _ _

/-- Changing the record of one serial changes one record. -/
theorem TableSound.map_serial {t : List Record} (h : TableSound t) {rec : Record} (hrec : rec ∈ t) (f : Record → Record) :
    t.map (fun x => if x.serial = rec.serial then f x else x) = t.map (fun x => if x = rec then f rec else x) := by
  refine List.map_congr_left fun x hx => ?_
  by_cases hxr : x = rec
  · simp [hxr]
  · rw [if_neg hxr, if_neg (fun hs => hxr ((h.serial_eq hx hrec).1 hs))]

end Sys2Proof.Machine
end

section
/-! CERTIFICATE. What a reply does to the sighting table: the record it finds, the record it adds, and the record that makes room (R41, R48
to R55). -/

namespace Sys2Proof.Machine

/-! ### A reply of a new serial -/

section Reply

variable {moveStep : Nat} {r : Reply} {t : List Record}

/-- A reply whose serial no record holds adds a record while there is room, and frees one for it otherwise (R49, R50). -/
theorem applyReply_new (new : ∀ x ∈ t, x.serial ≠ r.serial) :
    applyReply moveStep r t = if t.length < 48 then insertRecord r.record t
      else match evictee r.stamp t with
      | some out => insertRecord r.record (freeSerial out.serial t)
      | none => t := by
  have hnone : ¬t.any (fun x => x.serial == r.serial) = true := fun h => by
    obtain ⟨x, hx, hs⟩ := List.any_eq_true.1 h
    exact new x hx (beq_iff_eq.1 hs)
  rw [applyReply, if_neg hnone]
  rfl

/-- At a full table the record freed makes room for the new one (R50). -/
theorem mem_applyReply_evicting (h : TableSound t) (new : ∀ x ∈ t, x.serial ≠ r.serial) (full : 48 ≤ t.length) {out : Record}
    (hout : out ∈ t) (hev : evictee r.stamp t = some out) (x : Record) :
    x ∈ applyReply moveStep r t ↔ x = r.record ∨ (x ∈ t ∧ x ≠ out) := by
  rw [applyReply_new new, if_neg (Nat.not_lt.2 full), hev, mem_insertRecord, h.mem_freeSerial hout]

/-- The earliest FADING record goes first (R50). -/
theorem evictee_fading {now : Stamp} {out : Record} (h : earliest (fun x => x.state == .fading) Record.lastStamp now t = some out) :
    evictee now t = some out := by rw [evictee, h]

/-- With no FADING record the earliest STRAY one goes (R50). -/
theorem evictee_stray {now : Stamp} (h : ∀ x ∈ t, x.state ≠ .fading) :
    evictee now t = earliest Record.isStray Record.firstStamp now t := by
  rw [evictee, earliest_none (fun x hx => beq_eq_false_iff_ne.2 (h x hx))]

/-- Settles O27: the new serial takes the adding branches, and the record to free is the earliest of its kind. -/
theorem newSerialsRecorded : Obligations.NewSerialsRecorded := by
  unfold Obligations.NewSerialsRecorded
  intro moveStep r t h hnew new hrec
  obtain rfl : new = r.record := hrec
  refine ⟨fun hroom x => ?_, fun hfull out hout hfading first x => ?_, fun hfull hnone out hout hstray first x => ?_,
    fun hfull hlive => ?_⟩
  · rw [applyReply_new hnew, if_pos hroom, mem_insertRecord]
  · refine mem_applyReply_evicting h hnew hfull hout (evictee_fading (earliest_eq hout (beq_iff_eq.2 hfading) ?_)) x
    exact fun y hy hyf => first y hy (beq_iff_eq.1 hyf)
  · refine mem_applyReply_evicting h hnew hfull hout ?_ x
    rw [evictee_stray hnone]
    exact earliest_eq hout hstray first
  · have hnone : evictee r.stamp t = none := by
      rw [evictee_stray (fun x hx => by simp [hlive x hx])]
      exact earliest_none (fun x hx => by simp [Record.isStray, hlive x hx])
    rw [applyReply_new hnew, if_neg (Nat.not_lt.2 hfull), hnone]

/-! ### A reply of a known serial -/

/-- A reply whose serial a record holds is applied to that record alone. -/
theorem applyReply_known (h : TableSound t) {rec : Record} (hrec : rec ∈ t) (hs : rec.serial = r.serial) :
    applyReply moveStep r t = t.map (fun x => if x = rec then rec.apply moveStep r else x) := by
  have hany : t.any (fun x => x.serial == r.serial) = true := List.any_eq_true.2 ⟨rec, hrec, beq_iff_eq.2 hs⟩
  rw [applyReply, if_pos hany, ← hs]
  exact h.map_serial hrec (fun x => x.apply moveStep r)

/-- A second reply of one frame is ignored (R41). -/
theorem Record.apply_same {rec : Record} (h : rec.lastStamp = r.stamp) : rec.apply moveStep r = rec := if_pos h

/-- A LIVE or FADING record counts a reply (R51). -/
theorem Record.apply_count {rec : Record} (h : rec.lastStamp ≠ r.stamp) (hs : rec.isStray = false) :
    rec.apply moveStep r = rec.count r := by
  rw [Record.apply, if_neg h]
  split
  case h_1 hstate => simp [Record.isStray, hstate] at hs
  case h_2 => rfl

/-- A STRAY record meets a reply (R53). -/
theorem Record.apply_stray_eq {rec : Record} {aw ae : Nat} (h : rec.lastStamp ≠ r.stamp) (hs : rec.state = .stray aw ae) :
    rec.apply moveStep r = rec.meetStray moveStep aw ae r := by
  rw [Record.apply, if_neg h, hs]

theorem distance_eq (a b : Nat) : distance a b = ((a : Int) - b).natAbs := by
  unfold distance
  omega

/-- Settles O28: the record found takes the reply, and each case is what its own branch says. -/
theorem knownSerialsCounted : Obligations.KnownSerialsCounted := by
  unfold Obligations.KnownSerialsCounted
  intro moveStep r t h rec hrec hs
  refine ⟨rec.apply moveStep r, applyReply_known h hrec hs, Record.apply_same, fun hstamp hstray => ?_,
    fun aw ae hstamp hstate => ?_⟩
  · rw [Record.apply_count hstamp hstray, ← hs]
    rfl
  · rw [Record.apply_stray_eq hstamp hstate, Record.meetStray, distance_eq, distance_eq]
    refine ⟨fun hstill => if_neg (by omega), fun hmoved => ?_⟩
    rw [if_pos hmoved]
    rfl

end Reply

end Sys2Proof.Machine
end

section
/-! CERTIFICATE. The table's work of a frame start: records that fade, records freed by aging, and strays marked one at a time under the
stray cap (R56 to R63). -/

namespace Sys2Proof.Machine

/-! ### Fading and freeing -/

theorem Record.fades_iff (now : Stamp) (r : Record) :
    r.fades now = true ↔ r.state = .live ∧ 25 ≤ stampDiff r.lastStamp now := by
  simp only [Record.fades, Bool.and_eq_true, beq_iff_eq, decide_eq_true_eq]
  rfl

/-- The records that fade, told by state and stamp (R58). -/
theorem fadeRecords_eq (now : Stamp) (t : List Record) : fadeRecords now t = t.map (fun r =>
    if r.state = .live ∧ 25 ≤ stampDiff r.lastStamp now then { r with state := .fading } else r) :=
  List.map_congr_left fun r _ => by simp only [Record.fades_iff]

/-- The records that aging frees: long unheard FADING ones, and unheard STRAY ones (R59). -/
theorem Record.expires_iff (now : Stamp) (r : Record) : r.expires now = true ↔
    (r.state = .fading ∧ 100 ≤ stampDiff r.lastStamp now) ∨ (r.isStray = true ∧ 25 ≤ stampDiff r.lastStamp now) := by
  unfold Record.expires Record.isStray ageOf
  cases hstate : r.state <;> simp

theorem mem_freeRecords (now : Stamp) (t : List Record) (r : Record) : r ∈ freeRecords now t ↔ r ∈ t ∧
    ¬(r.state = .fading ∧ 100 ≤ stampDiff r.lastStamp now) ∧ ¬(r.isStray = true ∧ 25 ≤ stampDiff r.lastStamp now) := by
  rw [freeRecords, List.mem_filter, Bool.not_eq_true', ← Bool.not_eq_true, Record.expires_iff, not_or]

/-- Outside TAG_ONLY, and in SERVICE, the fading reports lead to nothing (R87). -/
theorem State.takesFades_iff (s : State) : s.takesFades = true ↔ s.lane.passage = .tagOnly ∧ s.startup.key ≠ .service := by
  simp [State.takesFades]

/-- Settles O30: without FADE triggers the table alone changes, and freeing is a filter. -/
theorem recordsFadeAndGo : Obligations.RecordsFadeAndGo := by
  unfold Obligations.RecordsFadeAndGo
  refine ⟨fun s ties h => ⟨s.withSightings (fadeRecords s.stamp s.sightings), ?_, s.withSightings_frame _, fadeRecords_eq _ _⟩,
    fun s => ⟨_, rfl, s.withSightings_frame _, mem_freeRecords _ _⟩⟩
  have hquiet : ¬s.takesFades = true := by
    rw [State.takesFades_iff]
    tauto
  change execRecordFade ties s = _
  rw [execRecordFade, if_neg hquiet]

/-! ### One stray marked -/

@[simp] theorem Record.mark_serial (r : Record) : r.mark.serial = r.serial := rfl
@[simp] theorem Record.mark_mark (r : Record) : r.mark.mark = r.mark := rfl

theorem Record.marks_iff (age : Nat) (now : Stamp) (r : Record) :
    r.marks age now = true ↔ r.state = .live ∧ (age : Int) ≤ stampDiff r.firstStamp now := by
  simp only [Record.marks, Bool.and_eq_true, beq_iff_eq, decide_eq_true_eq]
  rfl

/-- A STRAY record is not marked again. -/
theorem Record.marks_mark (age : Nat) (now : Stamp) (r : Record) : r.mark.marks age now = false := rfl

theorem Record.marks_stray {age : Nat} {now : Stamp} {r : Record} (h : r.isStray = true) : r.marks age now = false := by
  unfold Record.isStray at h
  unfold Record.marks
  cases hstate : r.state <;> simp_all

section Marking

variable {t : List Record} {now : Stamp} {age : Nat}

/-- With room under the stray cap, marking a serial changes the table in its place (R63). -/
theorem markOne_room (h : strayCount t < 16) (serial : Serial) :
    markOne now serial t = t.map (fun r => if r.serial = serial then r.mark else r) := by
  have hroom : strayCount t < maxStrays := h
  rw [markOne, if_pos hroom]

/-- With 16 STRAY records held, the earliest one is freed first (R63). -/
theorem markOne_full (h : strayCount t = 16) {out : Record} (hout : earliest Record.isStray Record.firstStamp now t = some out)
    (serial : Serial) :
    markOne now serial t = (freeSerial out.serial t).map (fun r => if r.serial = serial then r.mark else r) := by
  have hfull : ¬strayCount t < maxStrays := by simp [h, maxStrays]
  rw [markOne, if_neg hfull, hout]

/-- Of a sound table the marked record is changed, and the others stay. -/
theorem TableSound.mem_map_mark (h : TableSound t) {r : Record} (hr : r ∈ t) (x : Record) :
    x ∈ t.map (fun y => if y.serial = r.serial then y.mark else y) ↔ x = r.mark ∨ (x ∈ t ∧ x ≠ r) := by
  rw [h.map_serial hr, List.mem_map]
  constructor
  · rintro ⟨y, hy, rfl⟩
    split
    case isTrue => exact .inl rfl
    case isFalse hne => exact .inr ⟨hy, hne⟩
  · rintro (rfl | ⟨hx, hne⟩)
    · exact ⟨r, hr, if_pos rfl⟩
    · exact ⟨x, hx, if_neg hne⟩

/-! ### The strays of a frame start -/

/-- The serials of `due` marked one after another with room for all of them: each record of one of them is marked. -/
theorem foldl_markOne_room : ∀ (due t : List Record), TableSound t → strayCount t + due.length ≤ 16 →
    due.foldl (fun t r => markOne now r.serial t) t =
      t.map (fun r => if r.serial ∈ due.map Record.serial then r.mark else r)
  | [], t, _, _ => by simp
  | d :: due, t, h, hroom => by
    rw [List.length_cons] at hroom
    have hone := markOne_room (now := now) (t := t) (by omega) d.serial
    have hcount := strayCount_mark d.serial h.order
    rw [List.foldl_cons, foldl_markOne_room due _ (markOne_sound h now d.serial) (by rw [hone]; omega), hone, List.map_map]
    refine List.map_congr_left fun r _ => ?_
    simp only [Function.comp_apply, List.map_cons, List.mem_cons]
    by_cases hd : r.serial = d.serial <;> by_cases hlater : d.serial ∈ due.map Record.serial <;>
      simp [hd, hlater]

/-- With room for all of them, every record that is due is marked and no other changes (R60, R63). -/
theorem markStrays_room (h : TableSound t) (hroom : strayCount t + (t.filter (fun r => r.marks age now)).length ≤ 16) :
    markStrays age now t = t.map (fun r => if r.marks age now = true then r.mark else r) := by
  rw [markStrays, foldl_markOne_room _ t h (by rwa [sortBy_length])]
  refine List.map_congr_left fun r hr => ?_
  have hdue : r.serial ∈ (sortBy (earlier Record.firstStamp now) (t.filter (fun r => r.marks age now))).map Record.serial ↔
      r.marks age now = true := by
    simp only [List.mem_map, mem_sortBy, List.mem_filter]
    constructor
    · rintro ⟨x, ⟨hx, hmarks⟩, hs⟩
      rwa [← (h.serial_eq hx hr).1 hs]
    · exact fun hmarks => ⟨r, ⟨hr, hmarks⟩, rfl⟩
  simp only [hdue]

/-- The records due, in the order of marking. -/
def dueStrays (age : Nat) (now : Stamp) (t : List Record) : List Record :=
  sortBy (earlier Record.firstStamp now) (t.filter (fun r => r.marks age now))

theorem markStrays_eq : markStrays age now t = (dueStrays age now t).foldl (fun t r => markOne now r.serial t) t := rfl

theorem dueStrays_pairwise (h : TableSound t) :
    (dueStrays age now t).Pairwise (fun a b => earlier Record.firstStamp now a b = true) :=
  sortBy_pairwise earlier_trans ((h.order.filter _).imp fun hab => earlier_total (Nat.ne_of_lt hab))

theorem mem_dueStrays (x : Record) : x ∈ dueStrays age now t ↔ x ∈ t ∧ x.marks age now = true := by
  rw [dueStrays, mem_sortBy, List.mem_filter]

/-- The first of the records due is marked, and then the rest is marked as if it were the whole work: where marking the first leaves the
table `u`, whose records due are the others (R60, R63). -/
theorem markStrays_first {u : List Record} (ht : TableSound t) (hu : TableSound u) {r : Record} (hr : r ∈ t)
    (hmarks : r.marks age now = true)
    (first : ∀ x ∈ t, x.marks age now = true → x ≠ r → earlier Record.firstStamp now r x = true)
    (hone : markOne now r.serial t = u)
    (hdue : ∀ x, (x ∈ u ∧ x.marks age now = true) ↔ (x ∈ t ∧ x.marks age now = true) ∧ x ≠ r) :
    markStrays age now t = markStrays age now u := by
  have hsplit : dueStrays age now t = r :: dueStrays age now u := by
    refine eq_of_strict_order earlier_asymm (dueStrays_pairwise ht)
      (List.pairwise_cons.2 ⟨fun x hx => ?_, dueStrays_pairwise hu⟩) (fun x => ?_)
    · obtain ⟨⟨hx, hxmarks⟩, hne⟩ := (hdue x).1 ((mem_dueStrays x).1 hx)
      exact first x hx hxmarks hne
    · rw [List.mem_cons, mem_dueStrays, mem_dueStrays, hdue]
      by_cases hxr : x = r
      · simp [hxr, hr, hmarks]
      · simp [hxr]
  rw [markStrays_eq, hsplit, List.foldl_cons, hone, markStrays_eq]

/-- What marking one record takes from the records due is that record alone: the record freed for it was STRAY. -/
theorem due_of_marked {u : List Record} {r : Record} {freed : Record → Prop}
    (hmem : ∀ x, x ∈ u ↔ x = r.mark ∨ (x ∈ t ∧ x ≠ r ∧ ¬freed x)) (hfreed : ∀ x, freed x → x.isStray = true) (x : Record) :
    (x ∈ u ∧ x.marks age now = true) ↔ (x ∈ t ∧ x.marks age now = true) ∧ x ≠ r := by
  rw [hmem]
  constructor
  · rintro ⟨rfl | ⟨hx, hne, -⟩, hmarks⟩
    · rw [Record.marks_mark] at hmarks
      cases hmarks
    · exact ⟨⟨hx, hmarks⟩, hne⟩
  · rintro ⟨⟨hx, hmarks⟩, hne⟩
    refine ⟨.inr ⟨hx, hne, fun hf => ?_⟩, hmarks⟩
    rw [Record.marks_stray (hfreed x hf)] at hmarks
    cases hmarks

/-- With room under the cap, the table after one marking is told by its records (R63). -/
theorem markOne_eq_room {u : List Record} (ht : TableSound t) (hu : TableSound u) {r : Record} (hr : r ∈ t)
    (hroom : strayCount t < 16) (hmem : ∀ x, x ∈ u ↔ x = r.mark ∨ (x ∈ t ∧ x ≠ r)) : markOne now r.serial t = u :=
  (markOne_sound ht now r.serial).ext hu fun x => by rw [markOne_room hroom, ht.mem_map_mark hr, hmem]

/-- With 16 STRAY records held, so is the table after the earliest of them is freed and one is marked (R63). -/
theorem markOne_eq_full {u : List Record} (ht : TableSound t) (hu : TableSound u) {r out : Record} (hr : r ∈ t)
    (hfull : strayCount t = 16) (hout : out ∈ t) (hne : r ≠ out)
    (hfirst : earliest Record.isStray Record.firstStamp now t = some out)
    (hmem : ∀ x, x ∈ u ↔ x = r.mark ∨ (x ∈ t ∧ x ≠ r ∧ x ≠ out)) : markOne now r.serial t = u :=
  (markOne_sound ht now r.serial).ext hu fun x => by
    rw [markOne_full hfull hfirst, TableSound.mem_map_mark (t := freeSerial out.serial t) (ht.filter _)
      ((ht.mem_freeSerial hout r).2 ⟨hr, hne⟩), ht.mem_freeSerial hout, hmem, and_assoc, and_comm (a := x ≠ out)]

end Marking

/-! ### The lane conditions -/

theorem State.ownLaneQuiet_iff (s : State) : s.ownLaneQuiet = true ↔ (s.ownsLane = true → 250 ≤ s.lane.clearRun) := by
  cases h : s.ownsLane <;> simp [State.ownLaneQuiet, h]

theorem State.westLaneQuiet_iff (s : State) : s.westLaneQuiet = true ↔
    (2 ≤ s.position → s.neighbours.west.presence = .present → s.neighbours.west.laneBusy = some false) := by
  simp only [State.westLaneQuiet, State.keepsWest, Bool.or_eq_true, Bool.not_eq_true', decide_eq_false_iff_not, bne_iff_ne,
    beq_iff_eq]
  tauto

/-- STRAY_MARK with both lane conditions (R60). -/
theorem exec_strayMark_quiet {s : State} (hown : s.ownLaneQuiet = true) (hwest : s.westLaneQuiet = true) :
    exec .strayMark s = .next (s.withSightings (markStrays s.settings.strayAge s.stamp s.sightings)) := by
  change Host.Outcome.next (s.withSightings (s.strayMarked s.sightings)) = _
  rw [State.strayMarked, hown, hwest]
  rfl

/-- Settles O32: a failing condition leaves the table; with both, the strays are marked in the order of the records due, and marking the
first of them is what leaves the table that the rest starts from. -/
theorem straysMarked : Obligations.StraysMarked := by
  unfold Obligations.StraysMarked
  intro s h
  refine ⟨_, rfl, s.withSightings_frame _, fun hbusy => ?_, fun hown hwest => ?_⟩
  · have hquiet : ¬(s.ownLaneQuiet && s.westLaneQuiet) = true := by
      rw [Bool.and_eq_true, State.ownLaneQuiet_iff, State.westLaneQuiet_iff]
      rintro ⟨hown, hwest⟩
      obtain ⟨howns, hrun⟩ | ⟨hpos, hpresent, hlane⟩ := hbusy
      · have := hown howns
        omega
      · exact hlane (hwest hpos hpresent)
    rw [State.withSightings_sightings, State.strayMarked, if_neg hquiet]
  · rw [← State.ownLaneQuiet_iff] at hown
    rw [← State.westLaneQuiet_iff] at hwest
    refine ⟨fun hroom => ?_, fun r hr hlive hage first marked table htable hmarked hcases => ?_⟩
    · rw [State.withSightings_sightings, State.strayMarked, hown, hwest]
      refine (markStrays_room h hroom).trans (List.map_congr_left fun r _ => ?_)
      simp only [Record.marks_iff]
      rfl
    · obtain rfl : marked = r.mark := hmarked
      have hmarks := (Record.marks_iff s.settings.strayAge s.stamp r).2 ⟨hlive, hage⟩
      have hfirst : ∀ x ∈ s.sightings, x.marks s.settings.strayAge s.stamp = true → x ≠ r →
          earlier Record.firstStamp s.stamp r x = true := fun x hx hxmarks hne => by
        obtain ⟨hxlive, hxage⟩ := (Record.marks_iff _ _ _).1 hxmarks
        exact (earlier_iff _ _ _ _).2 (first x hx hne hxlive hxage)
      have hstart : markOne s.stamp r.serial s.sightings = table ∧ ∀ x,
          (x ∈ table ∧ x.marks s.settings.strayAge s.stamp = true) ↔
            (x ∈ s.sightings ∧ x.marks s.settings.strayAge s.stamp = true) ∧ x ≠ r := by
        obtain ⟨hroom, hmem⟩ | ⟨hfull, out, hout, hstray, hearliest, hmem⟩ := hcases
        · exact ⟨markOne_eq_room h htable hr hroom hmem,
            due_of_marked (freed := fun _ => False) (by simpa using hmem) (fun _ hf => hf.elim)⟩
        · have hne : r ≠ out := fun he => by
            rw [he, Record.marks_stray hstray] at hmarks
            cases hmarks
          exact ⟨markOne_eq_full h htable hr hfull hout hne
              (earliest_eq hout hstray (fun x hx hxs hxne => hearliest x hx hxne hxs)) hmem,
            due_of_marked (freed := fun x => x = out) hmem (fun x hf => hf ▸ hstray)⟩
      rw [exec_strayMark_quiet hown hwest, markStrays_first h htable hr hmarks hfirst hstart.1 hstart.2]
      exact (exec_strayMark_quiet (s := s.withSightings table) hown hwest).symm

end Sys2Proof.Machine
end

section
/-! SUPPORT. The parts of a notice body (R131, R141, R148), and what hearing a notice of another kind than CADENCE from another position
leaves (R104, R117, R120). -/

namespace Sys2Proof.Machine

/-! ### Parts -/

section Parts

variable {α β : Type}

theorem cutInto_map (f : α → β) (n : Nat) : ∀ (fuel : Nat) (l : List α),
    cutInto n fuel (l.map f) = (cutInto n fuel l).map (List.map f)
  | 0, _ => rfl
  | _ + 1, [] => rfl
  | fuel + 1, x :: l => by
    change ((x :: l).map f).take n :: cutInto n fuel (((x :: l).map f).drop n) = _
    rw [← List.map_take, ← List.map_drop, cutInto_map f n fuel]
    rfl

theorem partsOf_map (f : α → β) (n : Nat) (l : List α) : partsOf n (l.map f) = (partsOf n l).map (List.map f) := by
  cases l with
  | nil => rfl
  | cons x l => simpa [partsOf] using cutInto_map f n (l.length + 1) (x :: l)

theorem numberParts_map (f : List α → List β) (ps : List (List α)) :
    numberParts (ps.map f) = (numberParts ps).map (fun x => (x.1, x.2.1, f x.2.2)) := by
  simp [numberParts, List.zipIdx_map]

@[simp] theorem numberParts_length (ps : List (List α)) : (numberParts ps).length = ps.length := by simp [numberParts]

theorem cutInto_length {n : Nat} : ∀ (k fuel : Nat) {l : List α}, l.length ≤ k * n → (cutInto n fuel l).length ≤ k
  | _, 0, _, _ => Nat.zero_le _
  | _, _ + 1, [], _ => Nat.zero_le _
  | 0, _ + 1, _ :: _, h => by simp at h
  | k + 1, fuel + 1, x :: l, h => by
    have ih := cutInto_length (n := n) k fuel (l := (x :: l).drop n) (by
      rw [List.length_drop]
      rw [Nat.succ_mul] at h
      omega)
    simpa [cutInto] using ih

/-- `k` parts of `n` entries are enough for `k × n` entries. -/
theorem partsOf_length {n k : Nat} {l : List α} (hk : 1 ≤ k) (h : l.length ≤ k * n) : (partsOf n l).length ≤ k := by
  unfold partsOf
  split
  · exact hk
  · exact cutInto_length k _ h

end Parts

/-! ### A notice heard from another position -/

theorem State.HasRoom.mono {s : State} {m n : Nat} (h : s.HasRoom n) (le : m ≤ n) : s.HasRoom m :=
  ⟨h.awake, by have := h.fits; omega, h.quiet⟩

/-- Offers that find room, with no report left to take. -/
theorem State.offerAll_finish {s : State} {ns : List Notice} (room : s.HasRoom ns.length) (ties : Ties) :
    (s.offerAll ns).finishOffers ties = s.withLine { s.line with queue := s.line.queue ++ ns.map Queued.fresh } := by
  rw [State.offerAll_room ns room]
  exact State.finishOffers_none ties room.quiet

section Heard

variable {s : State} {p : Nat}

theorem State.takeOther_eq (h : p ≠ s.position) : s.takeOther p = s.dropAssembly.hearStation p :=
  State.hearSender_other (s := s.dropAssembly) h

theorem State.takeOther_other_frame (h : p ≠ s.position) : SameBut s [.cadence, .line, .neighbours] (s.takeOther p) := by
  rw [State.takeOther_eq h]
  exact s.dropAssembly_frame.then (State.hearStation_frame _ _) (by simp) (by simp)

theorem State.takeOther_line (h : p ≠ s.position) : (s.takeOther p).line = { s.line with rx := .hunting } := by
  rw [State.takeOther_eq h]
  rfl

theorem State.takeOther_stamp (h : p ≠ s.position) : (s.takeOther p).stamp = s.stamp := by
  rw [State.takeOther_eq h]
  rfl

/-- Hearing a notice changes nothing that the answer to a CALL depends on. -/
theorem State.takeOther_answersCall (h : p ≠ s.position) (lane : Byte) :
    (s.takeOther p).answersCall p lane = s.answersCall p lane := by
  rw [State.takeOther_eq h]
  rfl

theorem State.HasRoom.takeOther {n : Nat} (room : s.HasRoom n) (h : p ≠ s.position) : (s.takeOther p).HasRoom n := by
  have hline := State.takeOther_line h
  exact ⟨by rw [hline]; exact room.awake, by rw [hline]; exact room.fits, by rw [hline]; exact room.quiet⟩

end Heard

end Sys2Proof.Machine
end

section
/-! CERTIFICATE. RECEIVE_CALL: the EVIDENCE offered in answer (R67, R131, R132). -/

namespace Sys2Proof.Machine

theorem State.answersCall_iff (s : State) (p : Nat) (lane : Byte) : s.answersCall p lane = true ↔
    s.cadence.join = .joined ∧ s.neighbours.clash = false ∧ p + 1 = s.position ∧ lane.toNat = p := by
  simp [State.answersCall, State.isJoined, and_assoc]

/-- The answer to a CALL, part by part: the entries of the records kept. -/
theorem evidenceAnswer_eq (id : Byte) (snap : List Record) :
    evidenceAnswer id snap = (numberParts (partsOf 4 (keepLargest Record.westSum 24 snap))).map (fun (part, final, rs) =>
      .evidence id part final (rs.map (fun r => ⟨r.serial, r.unissued, r.watched, BitVec.ofNat 24 r.westSum,
        BitVec.ofNat 24 r.eastSum, BitVec.ofNat 16 r.reads⟩))) := by
  rw [evidenceAnswer, partsOf_map, numberParts_map, List.map_map]
  rfl

/-- An answer has at most 6 parts (R131). -/
theorem evidenceAnswer_length (id : Byte) (snap : List Record) : (evidenceAnswer id snap).length ≤ 6 := by
  rw [evidenceAnswer_eq, List.length_map, numberParts_length]
  exact partsOf_length (by omega) (keepLargest_length _ 24 _)

/-- A CALL from another position is heard, and answered when the part answers it (R131). -/
theorem exec_receiveCall_eq {s : State} {p : Nat} {id lane : Byte} {a b : Stamp}
    (h : s.incoming = some (p, .call id lane a b)) (hp : p ≠ s.position) :
    exec .receiveCall s = .next (if s.answersCall p lane then
      ((s.takeOther p).offerAll (evidenceAnswer id (snapshot a b s.sightings))).finishOffers .none else s.takeOther p) := by
  have hsightings : (s.takeOther p).sightings = s.sightings := (State.takeOther_other_frame hp).blocks .sightings (by decide)
  change execReceiveCall s = _
  simp only [execReceiveCall, h, State.takeOther_answersCall hp, hsightings]

/-- Settles O51: the answer finds room, and stands at the end of the queue part by part. -/
theorem callsAnswered : Obligations.CallsAnswered := by
  unfold Obligations.CallsAnswered
  intro s p id lane a b hincoming hp kept hkept
  have hframe := State.takeOther_other_frame hp
  have hexec := exec_receiveCall_eq hincoming hp
  refine ⟨fun hignored => ?_, fun hjoined hclash hwest hlane hroom => ?_⟩
  · rw [if_neg (by rwa [State.answersCall_iff])] at hexec
    exact ⟨_, hexec, hframe, State.takeOther_line hp⟩
  · rw [if_pos ((s.answersCall_iff p lane).2 ⟨hjoined, hclash, hwest, hlane⟩),
      State.offerAll_finish ((hroom.takeOther hp).mono (evidenceAnswer_length id _))] at hexec
    refine ⟨_, hexec, hframe.then (State.withLine_frame _ _) (by simp) (by simp), ?_⟩
    rw [State.withLine_line, State.takeOther_line hp, evidenceAnswer_eq, List.map_map, hkept]
    rfl

end Sys2Proof.Machine
end

section
/-! CERTIFICATE. RECEIVE_VERDICT: records reset, claims made, and candidates that yield (R64, R66, R143, R146). -/

namespace Sys2Proof.Machine

/-! ### Contests -/

theorem rivalWins_iff (lane share rivalLane rivalShare : Nat) : rivalWins lane share rivalLane rivalShare = true ↔
    share < rivalShare ∨ (share = rivalShare ∧ rivalLane < lane) := by simp [rivalWins]

/-- A candidate that does not stand has nothing to yield. -/
theorem Candidate.contestAll_fallen {lane rivalLane : Nat} {c : Candidate} (h : c.stands = false) : ∀ es : List VerdictEntry,
    es.foldl (Candidate.contest lane rivalLane) c = c
  | [] => rfl
  | e :: es => by
    have hone : c.contest lane rivalLane e = c := by simp [Candidate.contest, h]
    rw [List.foldl_cons, hone, Candidate.contestAll_fallen h es]

/-- A candidate yields to a rival VERDICT when it yields to one of its entries (R146). -/
theorem Candidate.contestAll_eq (lane rivalLane : Nat) (c : Candidate) : ∀ es : List VerdictEntry,
    es.foldl (Candidate.contest lane rivalLane) c =
      if ∃ e ∈ es, c.serial = e.serial ∧ c.stands = true ∧ rivalWins lane (c.share.getD 0) rivalLane e.share.toNat = true then
        { c with yielded := true } else c
  | [] => by simp
  | e :: es => by
    by_cases h : c.serial = e.serial ∧ c.stands = true ∧ rivalWins lane (c.share.getD 0) rivalLane e.share.toNat = true
    · have hfallen : Candidate.stands { c with yielded := true } = false := by simp [Candidate.stands]
      rw [List.foldl_cons, Candidate.contest, if_pos h, Candidate.contestAll_fallen hfallen,
        if_pos ⟨e, List.mem_cons_self, h⟩]
    · rw [List.foldl_cons, Candidate.contest, if_neg h, Candidate.contestAll_eq lane rivalLane c es]
      simp only [List.exists_mem_cons_iff, h, false_or]

/-- A HOLDING adjudication of another lane lets its candidates yield (R146). -/
theorem Adjudication.contest_eq (a : Adjudication) (rivalLane : Nat) (es : List VerdictEntry) :
    a.contest rivalLane es = if a.state = .holding ∧ a.lane ≠ rivalLane then
      { a with candidates := a.candidates.map (fun c =>
          if ∃ e ∈ es, c.serial = e.serial ∧ c.stands = true ∧ (c.share.getD 0 < e.share.toNat ∨
              (c.share.getD 0 = e.share.toNat ∧ rivalLane < a.lane)) then { c with yielded := true } else c) }
      else a := by
  simp only [Adjudication.contest, Candidate.contestAll_eq, rivalWins_iff]

/-! ### Records and claims -/

theorem resetRecords_eq (first : Stamp) (es : List VerdictEntry) (t : List Record) :
    resetRecords first (es.map VerdictEntry.serial) t = t.map (fun r => if ∃ e ∈ es, e.serial = r.serial then
      { r with westSum := 0, eastSum := 0, reads := 0, firstStamp := first } else r) := by
  have hnamed : ∀ r : Record, (es.map VerdictEntry.serial).contains r.serial = true ↔ ∃ e ∈ es, e.serial = r.serial := by
    simp
  simp only [resetRecords, hnamed]

theorem addClaims_heard (id lane : Byte) (es : List VerdictEntry) (l : List Claim) :
    addClaims (heardClaims id lane es) l =
      es.foldl (fun l e => addClaim ⟨e.serial, lane.toNat, e.share.toNat, id, 10⟩ l) l := by
  rw [addClaims, heardClaims, List.foldl_map]
  rfl

section Claims

variable {c : Claim} {l : List Claim}

theorem any_same_iff : l.any c.same = true ↔ ∃ k ∈ l, k.serial = c.serial ∧ k.lane = c.lane := by
  simp only [List.any_eq_true, Claim.same_iff, @eq_comm _ c.serial, @eq_comm _ c.lane]

/-- A claim of a serial and lane that has one takes its place (R143). -/
theorem addClaim_same (h : ∃ k ∈ l, k.serial = c.serial ∧ k.lane = c.lane) :
    addClaim c l = l.map (fun k => if k.serial = c.serial ∧ k.lane = c.lane then c else k) := by
  rw [addClaim, if_pos (any_same_iff.2 h)]
  refine List.map_congr_left fun k _ => ?_
  simp only [Claim.same_iff, @eq_comm _ c.serial, @eq_comm _ c.lane]

/-- A claim of a new serial and lane is added while there is room (R143). -/
theorem addClaim_room (h : ¬∃ k ∈ l, k.serial = c.serial ∧ k.lane = c.lane) (room : l.length < 32) :
    addClaim c l = l ++ [c] := by
  have hroom : l.length < maxClaims := room
  rw [addClaim, if_neg (any_same_iff.not.2 h), if_pos hroom]

/-- At 32 claims it is added in the place of the one to be replaced first (R143). -/
theorem addClaim_full (h : ¬∃ k ∈ l, k.serial = c.serial ∧ k.lane = c.lane) (full : 32 ≤ l.length) {out : Claim}
    (hout : pickBest replacedBefore l = some out) : addClaim c l = l.filter (fun x => !out.same x) ++ [c] := by
  have hfull : ¬l.length < maxClaims := Nat.not_lt.2 full
  rw [addClaim, if_neg (any_same_iff.not.2 h), if_neg hfull, hout]

theorem replacedBefore_iff (a b : Claim) : replacedBefore a b = true ↔
    a.remaining < b.remaining ∨ (a.remaining = b.remaining ∧
      (a.serial.toNat < b.serial.toNat ∨ (a.serial = b.serial ∧ a.lane < b.lane))) := by
  simp [replacedBefore]

theorem replacedBefore_asymm {a b : Claim} (h : replacedBefore a b = true) : replacedBefore b a = false := by
  rw [← Bool.not_eq_true, replacedBefore_iff]
  rw [replacedBefore_iff] at h
  grind

/-- Where no two claims share serial and lane, those names pick out one claim. -/
theorem ClaimsDistinct.same_iff_eq (h : ClaimsDistinct l) {a b : Claim} (ha : a ∈ l) (hb : b ∈ l) : a.same b = true ↔ b = a := by
  rw [Claim.same_iff]
  refine ⟨fun hs => ?_, fun he => he ▸ ⟨rfl, rfl⟩⟩
  by_contra hne
  have : Std.Symm (fun a b : Claim => ¬(a.serial = b.serial ∧ a.lane = b.lane)) :=
    ⟨fun _ _ hab hba => hab ⟨hba.1.symm, hba.2.symm⟩⟩
  exact h.forall ha hb (Ne.symm hne) hs

end Claims

/-- A VERDICT from another position is heard and taken (R66, R143, R146). -/
theorem exec_receiveVerdict_eq {s : State} {p : Nat} {id lane : Byte} {part : BitVec 4} {final : Bool}
    {es : List VerdictEntry} (h : s.incoming = some (p, .verdict id lane part final es)) :
    exec .receiveVerdict s = .next ((s.takeOther p).takeVerdict id lane es) := by
  change execReceiveVerdict s = _
  simp only [execReceiveVerdict, h]

/-- Settles O54: each block takes the VERDICT by its own operation, and each operation is what its rule says. -/
theorem verdictsHeard : Obligations.VerdictsHeard := by
  unfold Obligations.VerdictsHeard
  refine ⟨fun s p id lane part final es hincoming hp => ?_, fun c l hl => ⟨addClaim_same, fun hnew hroom => ?_,
    fun hnew hfull out hout hfirst k => ?_⟩, fun lane lane' share share' hlanes => ?_⟩
  · have hframe := State.takeOther_other_frame hp
    have hadj : (s.takeOther p).adj = s.adj := hframe.blocks .adj (by decide)
    have hsightings : (s.takeOther p).sightings = s.sightings := hframe.blocks .sightings (by decide)
    refine ⟨_, exec_receiveVerdict_eq hincoming, hframe.then (State.takeVerdict_frame _ _ _ _) (by simp) (by simp), ?_, ?_, ?_,
      ?_, ?_⟩
    · exact State.takeOther_line hp
    · rw [State.takeVerdict, State.withAdj_sightings, State.withSightings_sightings, State.takeOther_stamp hp, hsightings,
        resetRecords_eq]
    · rw [State.takeVerdict, State.withAdj_adj, State.withSightings_adj, hadj]
    · rw [State.takeVerdict, State.withAdj_adj, State.withSightings_adj, hadj, addClaims_heard]
    · rw [State.takeVerdict, State.withAdj_adj, State.withSightings_adj, hadj]
      exact List.map_congr_left fun a _ => a.contest_eq _ _
  · exact addClaim_room (by simpa using hnew) hroom
  · have hpick : pickBest replacedBefore l = some out := pickBest_eq hout fun y hy hne => by
      have hbefore := (replacedBefore_iff out y).2 (hfirst y hy hne)
      exact ⟨hbefore, replacedBefore_asymm hbefore⟩
    rw [addClaim_full (by simpa using hnew) hfull hpick, List.mem_append, List.mem_filter, List.mem_singleton, or_comm]
    refine or_congr_right (and_congr_right fun hk => ?_)
    rw [Bool.not_eq_true', ← Bool.not_eq_true, ClaimsDistinct.same_iff_eq hl hout hk]
  · rw [← Bool.not_eq_true, rivalWins_iff, rivalWins_iff]
    omega

end Sys2Proof.Machine
end

section
/-! CERTIFICATE. FRAME_START: the countdowns of the adjudicator, the first stamps, and the STATUS of frame index 2p (R57, R109, R114, R115,
R130, R144, R145). -/

namespace Sys2Proof.Machine

/-! ### The STATUS -/

theorem State.position_congr {s t : State} (h : t.startup = s.startup) : t.position = s.position := by
  rw [State.position, State.position, h]

theorem State.ownsLane_congr {s t : State} (h : t.startup = s.startup) : t.ownsLane = s.ownsLane := by
  have hend : t.endPedestal = s.endPedestal := by rw [State.endPedestal, State.endPedestal, h]
  rw [State.ownsLane, State.ownsLane, State.position_congr h, hend]

/-- The row line takes nothing but the STATUS at a frame start (R114). -/
theorem State.offerStatus_eq (s : State) (wasRunning : Bool) (view : StatusView) (h : s.HasRoom 1) :
    s.offerStatus wasRunning view = s.withLine (if s.cadence.frameIdx = 2 * s.position then
      { s.line with queue := s.line.queue ++ [Queued.fresh (s.statusNotice wasRunning view)] } else s.line) := by
  unfold State.offerStatus
  split
  · exact State.offer_room h _
  · rfl

/-- What a beam's fault reads after the raising that is due (R86, R115). -/
theorem Beam.raiseStuck_stuck (b : Beam) : b.raiseStuck.stuck = (b.stuck || (b.broken && decide (1500 ≤ b.duration))) := by
  unfold Beam.raiseStuck stuckFrames
  split
  case isTrue h => simp [h]
  case isFalse h => cases hb : b.broken <;> simp_all

theorem LaneMonitor.raiseStuck_inner (l : LaneMonitor) : l.raiseStuck.inner = l.inner.raiseStuck := by
  unfold LaneMonitor.raiseStuck
  dsimp only
  split <;> rfl

theorem LaneMonitor.raiseStuck_outer (l : LaneMonitor) : l.raiseStuck.outer = l.outer.raiseStuck := by
  unfold LaneMonitor.raiseStuck
  dsimp only
  split <;> rfl

/-- A frame start changes no fault of a beam and no passage state; those are the work of filter ticks and of the raising (R81, R85). -/
theorem LaneMonitor.frameStart_kept (l : LaneMonitor) (now : Stamp) : (l.frameStart now).inner.stuck = l.inner.stuck ∧
    (l.frameStart now).outer.stuck = l.outer.stuck ∧ (l.frameStart now).passage = l.passage := by
  have hbeam : ∀ b : Beam, b.countFrame.stuck = b.stuck := fun b => by rw [Beam.countFrame_eq]
  unfold LaneMonitor.frameStart
  split
  · exact ⟨hbeam _, hbeam _, rfl⟩
  · exact ⟨rfl, rfl, rfl⟩

/-- First stamps have no part in the watched-tag indication (R44, R57). -/
theorem watchedInField_restamp (p : Record → Prop) [DecidablePred p] (st : Stamp) (t : List Record) :
    watchedInField (t.map (fun r => if p r then { r with firstStamp := st } else r)) = watchedInField t := by
  simp only [watchedInField, List.any_map]
  congr 1
  funext r
  dsimp only [Function.comp_apply]
  split <;> rfl

theorem watchedInField_limit (now : Stamp) (t : List Record) : watchedInField (limitFirstStamps now t) = watchedInField t :=
  watchedInField_restamp (fun r => 65535 < ageOf now r.firstStamp) _ t

/-- The countdown of an adjudication, field by field (R130, R145). -/
theorem Adjudication.countDown_eq (a : Adjudication) : a.countDown = { a with
    deadline := if a.state = .collecting then a.deadline.map (· - 1) else a.deadline
    hold := if a.state = .holding then a.hold.map (· - 1) else a.hold } := by
  unfold Adjudication.countDown
  cases hstate : a.state <;> simp

/-- With no claim at 0 already, every claim stays and loses one frame (R144). -/
theorem countClaims_pos {l : List Claim} (h : ∀ c ∈ l, 0 < c.remaining) :
    countClaims l = l.map (fun c => { c with remaining := c.remaining - 1 }) := by
  rw [countClaims, List.filter_eq_self.mpr (by simpa using h)]

/-! ### The line -/

/-- The frame-start event but for the STATUS that it offers at its end. -/
theorem State.frameStartEvent_offers (s : State) (st : Stamp) (off at0 : Nat) (adopted : Bool) (view : StatusView) :
    ∃ u : State, s.frameStartEvent st off at0 adopted view = u.offerStatus s.field.running view ∧ u.line = s.line ∧
      u.startup = s.startup ∧ u.cadence.frameIdx = st.index := by
  refine ⟨_, rfl, ?_, ?_, ?_⟩
  all_goals by_cases h : st.index = 0 <;> simp [h, Cadence.beginFrame]

/-- The line after a frame-start event that finds room (R109, R114). -/
theorem State.frameStartEvent_line {s : State} (room : s.HasRoom 1) (st : Stamp) (off at0 : Nat) (adopted : Bool)
    (view : StatusView) : (s.frameStartEvent st off at0 adopted view).line = if st.index = 2 * s.position then
      { s.line with queue := s.line.queue ++
        [Queued.fresh ((s.frameStartEvent st off at0 adopted view).statusNotice s.field.running view)] }
      else s.line := by
  obtain ⟨u, heq, hline, hstartup, hindex⟩ := s.frameStartEvent_offers st off at0 adopted view
  have hposition := State.position_congr hstartup
  rw [heq, State.offerStatus_eq u _ _ ⟨hline ▸ room.awake, hline ▸ room.fits, hline ▸ room.quiet⟩, State.withLine_line,
    hindex, hposition, hline]
  rfl

/-- What the countdowns and the line hold after FRAME_START with room for one notice, besides the blocks of CountedTo. -/
structure StatusOffered (s t : State) (view : StatusView) : Prop where
  sampler : t.sampler = s.sampler
  startup : t.startup = s.startup
  adj : t.adj = { s.adj with list := s.adj.list.map Adjudication.countDown, claims := countClaims s.adj.claims }
  sightings : t.sightings = limitFirstStamps t.stamp s.sightings
  line : t.line = if t.cadence.frameIdx = 2 * s.position then
    { s.line with queue := s.line.queue ++ [Queued.fresh (t.statusNotice s.field.running view)] } else s.line

theorem exec_frameStart_offers {s : State} (hs : s.startup.state = .joined) (hj : s.cadence.join = .joined)
    (room : s.HasRoom 1) (view : StatusView) :
    ∃ t, exec (.frameStart view) s = .next t ∧ SameBut s atFrameStart t ∧ CountedTo s t ∧ StatusOffered s t view := by
  obtain ⟨t, hexec, hframe, hcounted⟩ := exec_frameStart_counts hs hj view
  refine ⟨t, hexec, hframe, hcounted, ?_⟩
  obtain ⟨clock, hto⟩ := State.toOffset_joined hs hj (frameLength s.cadence.frameIdx)
  have ht := hexec
  rw [show exec (.frameStart view) s = execFrameStart view s from rfl, execFrameStart,
    if_pos (by simp [State.isJoined, hj]), hto, Host.Outcome.next.injEq] at ht
  generalize hc : ({ s.cadence with clock := clock, offset := max s.cadence.offset (frameLength s.cadence.frameIdx) } : Cadence) = c
    at ht
  dsimp only at ht
  have hstamp : (s.withCadence c).stamp.next = s.stamp.next := by rw [← hc]; rfl
  have hline := State.frameStartEvent_line (s := s.withCadence c) ⟨room.awake, room.fits, room.quiet⟩ s.stamp.next 0
    ((s.withCadence c).cadence.offset - frameLength (s.withCadence c).cadence.frameIdx) false view
  rw [hstamp, State.finishOffers_none _ (by rw [hline]; split <;> exact room.quiet)] at ht
  have hindex : t.cadence.frameIdx = s.stamp.next.index := by rw [← hcounted.stamp]; rfl
  have hnow := hcounted.stamp
  subst ht
  refine ⟨by simp, by simp, by simp, ?_, ?_⟩
  · rw [hnow, State.frameStartEvent_sightings, State.withCadence_sightings]
  · rw [hline, hindex]
    rfl

/-- The STATUS of a frame start, item by item (R115, Table 7-1). -/
theorem StatusOffered.notice {s t : State} {view : StatusView} (hoffered : StatusOffered s t view) (hcounted : CountedTo s t) :
    t.statusNotice s.field.running view = .status t.cadence.superFrame
      { westFault := s.sampler.west.faulted
        eastFault := s.sampler.east.faulted
        innerStuck := s.ownsLane && (s.lane.inner.stuck ||
          (view.inner && t.lane.inner.broken && decide (1500 ≤ t.lane.inner.duration)))
        outerStuck := s.ownsLane && (s.lane.outer.stuck ||
          (view.outer && t.lane.outer.broken && decide (1500 ≤ t.lane.outer.duration)))
        laneBusy := s.ownsLane && s.lane.passage != .clear
        service := s.startup.key == .service
        defaulted := s.startup.defaulted
        clash := s.neighbours.clash
        watchedTag := (if view.watched then t.tableAfter else s.sightings).any (fun r => r.watched && !r.isStray)
        fieldRunning := if view.running then t.field.running else s.field.running }
      (if s.ownsLane then s.alarm.latch.cls else .noAlarm) (s.ownsLane && s.alarm.latch.acknowledged) := by
  have howns := State.ownsLane_congr hoffered.startup
  obtain ⟨hinner, houter, hpassage⟩ := s.lane.frameStart_kept s.stamp.next
  rw [← hcounted.lane] at hinner houter hpassage
  have hstuck : ∀ (b b' : Beam) (v : Bool), b'.stuck = b.stuck →
      (if v then b'.raiseStuck.stuck else b'.stuck) = (b.stuck || (v && b'.broken && decide (1500 ≤ b'.duration))) := by
    intro b b' v h
    rw [Beam.raiseStuck_stuck, h]
    cases v <;> simp
  have hclash : t.neighbours.clash = s.neighbours.clash := by
    rw [hcounted.neighbours]
    split <;> rfl
  have hwatched : watchedInField (if view.watched then t.tableAfter else t.sightings) =
      (if view.watched then t.tableAfter else s.sightings).any (fun r => r.watched && !r.isStray) := by
    rw [hoffered.sightings]
    cases view.watched
    · exact watchedInField_limit _ _
    · rfl
  simp only [State.statusNotice, State.statusFlags, State.laneBusy, LaneMonitor.raiseStuck_inner,
    LaneMonitor.raiseStuck_outer, hstuck s.lane.inner _ _ hinner, hstuck s.lane.outer _ _ houter, howns, hoffered.sampler,
    hoffered.startup, hpassage, hclash, hwatched, hcounted.alarm]

/-- Settles O23: each clause is what CountedTo and StatusOffered say of its block, and the STATUS is read off the part's state. -/
theorem frameStartOffersStatus : Obligations.FrameStartOffersStatus := by
  unfold Obligations.FrameStartOffersStatus
  intro s view hs hj _ room hclaims
  obtain ⟨t, hexec, hframe, hcounted, hoffered⟩ := exec_frameStart_offers hs hj room view
  refine ⟨t, hexec, hframe, by rw [hoffered.adj], ?_, ?_, hoffered.sightings, fun h => ?_, fun h => ?_⟩
  · rw [hoffered.adj]
    exact List.map_congr_left fun a _ => a.countDown_eq
  · rw [hoffered.adj]
    exact countClaims_pos hclaims
  · rw [hoffered.line, if_neg h]
  · rw [hoffered.line, if_pos h]
    rw [hoffered.notice hcounted]
    rfl

end Sys2Proof.Machine
end

section
/-! SUPPORT. What an opening does when its offers find room: the VERDICT given, the settlement with its journal and its latch, and the place
in the list (R125 to R129, R141, R142, R148, R160, R173). -/

namespace Sys2Proof.Machine

/-! ### A VERDICT given -/

theorem Adjudication.attributed_length (a : Adjudication) : a.attributed.length ≤ a.candidates.length := by
  rw [Adjudication.attributed, sortBy_length]
  exact List.length_filter_le _ _

/-- A VERDICT has at most 3 parts (R141). -/
theorem Adjudication.verdicts_length {a : Adjudication} (h : a.candidates.length ≤ 24) : a.verdicts.length ≤ 3 := by
  have := a.attributed_length
  rw [Adjudication.verdicts, List.length_map, numberParts_length]
  exact partsOf_length (by omega) (by rw [List.length_map]; omega)

/-- A SETTLEMENT has at most 3 parts (R148). -/
theorem Adjudication.settlements_length {a : Adjudication} (h : a.candidates.length ≤ 24) : a.settlements.length ≤ 3 := by
  have := a.attributed_length
  have : a.standing.length ≤ a.attributed.length := List.length_filter_le _ _
  rw [Adjudication.settlements, List.length_map, numberParts_length]
  exact partsOf_length (by omega) (by rw [Adjudication.settled, List.length_map]; omega)

/-- A VERDICT that finds room (R65, R141, R142). -/
theorem State.giveVerdict_room {s : State} {w : Adjudication} (room : s.HasRoom w.verdicts.length) (ties : Ties) :
    s.giveVerdict ties w =
      ((s.withLine { s.line with queue := s.line.queue ++ w.verdicts.map Queued.fresh }).withAdj { s.adj with
        claims := addClaims (w.claims (if ties.claims then 9 else 10)) s.adj.claims }).withSightings
          (resetRecords (if ties.sightings then s.stamp else s.stamp.next) (w.attributed.map Candidate.serial) s.sightings) := by
  rw [State.giveVerdict, State.offerAll_room _ room]
  rfl

/-! ### A settlement -/

/-- Entries appended one after another: the newest 32 stay (R173). -/
theorem appendAll_eq : ∀ (new j : List JournalEntry), j.length ≤ 32 →
    new.foldl (fun j e => appendJournal e j) j = (j ++ new).drop (j.length + new.length - 32)
  | [], j, h => by
    rw [List.foldl_nil, List.append_nil, List.length_nil, show j.length + 0 - 32 = 0 by omega, List.drop_zero]
  | e :: new, j, h => by
    rw [List.foldl_cons, appendAll_eq new _ (appendJournal_length e h)]
    by_cases hroom : j.length < 32
    · have hone : appendJournal e j = j ++ [e] := if_pos hroom
      rw [hone, List.append_assoc, List.length_append, List.length_singleton, List.length_cons, List.singleton_append]
      congr 1
      omega
    · have hone : appendJournal e j = j.drop 1 ++ [e] := if_neg hroom
      have hlen : (j.drop 1).length = 31 := by rw [List.length_drop]; omega
      have hjoin : j.drop 1 ++ [e] ++ new = (j ++ e :: new).drop 1 := by
        rw [List.drop_append_of_le_length (by omega), List.append_assoc, List.singleton_append]
      rw [hone, hjoin, List.drop_drop, List.length_append, hlen, List.length_singleton, List.length_cons]
      congr 1
      omega

/-- The standing ALARM candidates (R160). -/
theorem Adjudication.mem_alarms (a : Adjudication) (c : Candidate) :
    c ∈ a.standing.filter (fun c => c.kind == some .alarm) ↔ c ∈ a.candidates ∧ c.kind = some .alarm ∧ c.yielded = false := by
  simp only [Adjudication.standing, Adjudication.attributed, List.mem_filter, mem_sortBy, Candidate.stands, Bool.and_eq_true,
    Bool.not_eq_true', beq_iff_eq]
  constructor
  · rintro ⟨⟨⟨hc, -⟩, -, hy⟩, hk⟩
    exact ⟨hc, hk, hy⟩
  · rintro ⟨hc, hk, hy⟩
    simp [hc, hk, hy]

/-- With no ALARM standing there is no settled class (R160). -/
theorem Adjudication.settledClass_none {a : Adjudication}
    (h : ∀ c ∈ a.candidates, c.kind = some .alarm → c.yielded = true) : a.settledClass = none := by
  have hnil : a.standing.filter (fun c => c.kind == some .alarm) = [] := List.eq_nil_iff_forall_not_mem.2 fun c hc => by
    obtain ⟨hmem, hkind, hstands⟩ := (a.mem_alarms c).1 hc
    rw [h c hmem hkind] at hstands
    cases hstands
  rw [Adjudication.settledClass, hnil]
  rfl

/-- The settled class is WATCHED when a standing ALARM is watched (R160). -/
theorem Adjudication.settledClass_some {a : Adjudication} (h : ∃ c ∈ a.candidates, c.kind = some .alarm ∧ c.yielded = false) :
    a.settledClass = some (if ∃ c ∈ a.candidates, c.kind = some .alarm ∧ c.yielded = false ∧ c.watched = true then .watched
      else .unissued) := by
  obtain ⟨c, hc⟩ := h
  have hsome : ¬(a.standing.filter (fun c => c.kind == some .alarm)).isEmpty = true := by
    rw [List.isEmpty_iff]
    exact List.ne_nil_of_mem ((a.mem_alarms c).2 hc)
  have hwatched : (a.standing.filter (fun c => c.kind == some .alarm)).any Candidate.watched = true ↔
      ∃ c ∈ a.candidates, c.kind = some .alarm ∧ c.yielded = false ∧ c.watched = true := by
    simp only [List.any_eq_true, Adjudication.mem_alarms, and_assoc]
  rw [Adjudication.settledClass, if_neg hsome, ← apply_ite some]
  simp only [hwatched]

/-- The latch raised, with room for its notice (R160, R161). -/
theorem State.raiseLatch_room {s : State} (room : s.HasRoom 1) {cls held : AlarmClass} {change : LatchChange}
    (hcls : cls ≠ .noAlarm) (hheld : held = if s.alarm.latch.cls = .watched then .watched else cls)
    (hchange : change = if s.alarm.latch.cls = .unissued ∧ cls = .watched then .classRaised else .raised) :
    s.raiseLatch cls = (s.withAlarm { s.alarm with latch := ⟨held, false, false⟩ }).withLine
      { s.line with queue := s.line.queue ++ [Queued.fresh (.alarm s.laneByte held change false)] } := by
  have hraise : s.raiseLatch cls = s.changeLatch ⟨held, false, false⟩ change := by
    unfold State.raiseLatch
    subst hheld hchange
    cases cls with
    | noAlarm => exact absurd rfl hcls
    | unissued => cases s.alarm.latch.cls <;> rfl
    | watched => cases s.alarm.latch.cls <;> rfl
  rw [hraise, State.changeLatch]
  exact State.offer_room (s := s.withAlarm { s.alarm with latch := ⟨held, false, false⟩ })
    ⟨room.awake, room.fits, room.quiet⟩ _

/-- The state of a settlement before the latch takes it. -/
def State.settledAlarmless (s : State) (ties : Ties) (a : Adjudication) : State :=
  ((s.withLine { s.line with queue := s.line.queue ++ a.settlements.map Queued.fresh }).withCarried
    (applySettlement (if ties.carriedIn then s.settings.grace - 1 else s.settings.grace) a.settled s.carried)).withAlarm
      { s.alarm with
        journal := ((a.standing.filter Candidate.alarms).map (s.journalEntry ties a)).foldl
          (fun j e => appendJournal e j) s.alarm.journal }

/-- A settlement whose notices find room (R148). -/
theorem State.settle_room {s : State} {a : Adjudication} (room : s.HasRoom a.settlements.length) (ties : Ties) :
    s.settle ties a = match a.settledClass with
      | some cls => (s.settledAlarmless ties a).raiseLatch cls
      | none => s.settledAlarmless ties a := by
  unfold State.settle
  rw [State.offerAll_room _ room]
  rfl

/-- With room for its notices and that of the latch, a settlement is what SettledTo says, and of the line only the queue moves. -/
theorem State.settle_settled {s : State} {a : Adjudication} (room : s.HasRoom 4) (few : a.candidates.length ≤ 24) (ties : Ties) :
    SettledTo s ties a (s.settle ties a) ∧ (s.settle ties a).line = { s.line with queue := (s.settle ties a).line.queue } := by
  have hparts := a.settlements_length few
  rw [State.settle_room (room.mono (by omega))]
  have hroom : (s.settledAlarmless ties a).HasRoom 1 := ⟨room.awake, by
    have := room.fits
    simp only [State.settledAlarmless, State.withAlarm_line, State.withCarried_line, State.withLine_line, List.length_append,
      List.length_map]
    omega, room.quiet⟩
  have hjournal : s.alarm.journal.length ≤ 32 → ∀ new : List JournalEntry,
      new = (a.standing.filter Candidate.alarms).map (s.journalEntry ties a) →
      (s.settledAlarmless ties a).alarm.journal = (s.alarm.journal ++ new).drop (s.alarm.journal.length + new.length - 32) :=
    fun h new hnew => hnew ▸ appendAll_eq _ _ h
  by_cases h : ∃ c ∈ a.candidates, c.kind = some .alarm ∧ c.yielded = false
  · have hraised := fun held change => State.raiseLatch_room (held := held) (change := change) hroom
      (cls := if ∃ c ∈ a.candidates, c.kind = some .alarm ∧ c.yielded = false ∧ c.watched = true then .watched else .unissued)
      (by split <;> simp)
    rw [Adjudication.settledClass_some h]
    dsimp only
    rw [hraised _ _ rfl rfl]
    refine ⟨⟨rfl, hjournal, rfl, fun hnone => ?_, fun _ cls held change hcls hheld hchange => ?_⟩, rfl⟩
    · obtain ⟨c, hc, hkind, hstands⟩ := h
      rw [hnone c hc hkind] at hstands
      cases hstands
    · subst hcls hheld hchange
      refine ⟨rfl, ?_⟩
      rw [List.map_append, ← List.append_assoc]
      rfl
  · have hnone : ∀ c ∈ a.candidates, c.kind = some .alarm → c.yielded = true := by simpa using h
    rw [Adjudication.settledClass_none hnone]
    exact ⟨⟨rfl, hjournal, rfl, fun _ => ⟨rfl, rfl⟩, fun hsome => absurd hsome h⟩, rfl⟩

end Sys2Proof.Machine
end

section
/-! CERTIFICATE. RECORD_FADE in tag-only working: each FADE trigger opens an adjudication, called for or weighed at once (R58, R87, R122, R126
to R129). -/

namespace Sys2Proof.Machine

/-! ### An opening weighed at once -/

/-- The list without an adjudication whose call id no other one has. -/
theorem removeAdj_split {pre post : List Adjudication} {old : Adjudication} (h : ∀ b ∈ pre ++ post, b.callId ≠ old.callId) :
    removeAdj old.callId (pre ++ old :: post) = pre ++ post := by
  have keep : ∀ l : List Adjudication, (∀ b ∈ l, b ∈ pre ++ post) → removeAdj old.callId l = l := fun l hl =>
    List.filter_eq_self.2 fun b hb => decide_eq_true (h b (hl b hb))
  have hpre := keep pre (fun b hb => List.mem_append_left _ hb)
  have hpost := keep post (fun b hb => List.mem_append_right _ hb)
  simp only [removeAdj] at hpre hpost ⊢
  rw [List.filter_append, List.filter_cons, hpre, hpost]
  simp

/-- The first HOLDING adjudication of the list. -/
theorem find_holding {pre post : List Adjudication} {old : Adjudication} (h : ∀ b ∈ pre, b.state ≠ .holding)
    (hold : old.state = .holding) : (pre ++ old :: post).find? (fun a => a.state == .holding) = some old := by
  rw [List.find?_append, List.find?_eq_none.2 (fun b hb => by simpa using h b hb)]
  simp [hold]

section Weighed

variable {s : State} {ties : Ties} {w : Adjudication}

/-- The state once the VERDICT of an opening is given (R128, R141, R142). -/
def State.verdictGiven (s : State) (ties : Ties) (w : Adjudication) : State :=
  ((s.withLine { s.line with queue := s.line.queue ++ w.verdicts.map Queued.fresh }).withAdj { s.adj with
    nextCall := s.adj.nextCall + 1
    claims := addClaims (w.claims (if ties.claims then 9 else 10)) s.adj.claims }).withSightings
      (resetRecords (if ties.sightings then s.stamp else s.stamp.next) (w.attributed.map Candidate.serial) s.sightings)

theorem State.giveVerdict_opening (room : s.HasRoom w.verdicts.length) (ties : Ties) :
    (s.withAdj { s.adj with nextCall := s.adj.nextCall + 1 }).giveVerdict ties w = s.verdictGiven ties w :=
  State.giveVerdict_room (s := s.withAdj { s.adj with nextCall := s.adj.nextCall + 1 }) ⟨room.awake, room.fits, room.quiet⟩ ties

/-- What every branch of an opening that attributes candidates keeps of the VERDICT: the branches move only the list and what a settlement
moves. -/
structure VerdictKept (s : State) (ties : Ties) (w : Adjudication) (t : State) : Prop where
  nextCall : t.adj.nextCall = s.adj.nextCall + 1
  claims : t.adj.claims = addClaims (w.claims (if ties.claims then 9 else 10)) s.adj.claims
  sightings : t.sightings = resetRecords (if ties.sightings then s.stamp else s.stamp.next) (w.attributed.map Candidate.serial)
    s.sightings
  line : t.line = { s.line with queue := t.line.queue }

/-- The list is replaced after the VERDICT, and an adjudication settles. -/
theorem VerdictKept.settled (room : s.HasRoom 7) (hw : w.candidates.length ≤ 24) (l : List Adjudication)
    {a : Adjudication} (ha : a.candidates.length ≤ 24) :
    VerdictKept s ties w (((s.verdictGiven ties w).withList l).settle ties a) ∧
      (((s.verdictGiven ties w).withList l).settle ties a).adj.list = l ∧
      SettledTo (s.withLine { s.line with queue := s.line.queue ++ w.verdicts.map Queued.fresh }) ties a
        (((s.verdictGiven ties w).withList l).settle ties a) := by
  have hparts := w.verdicts_length hw
  have hroom : ((s.verdictGiven ties w).withList l).HasRoom 4 := ⟨room.awake, by
    have := room.fits
    change (s.line.queue ++ w.verdicts.map Queued.fresh).length + 4 ≤ 12
    rw [List.length_append, List.length_map]
    omega, room.quiet⟩
  have hframe := ((s.verdictGiven ties w).withList l).settle_frame ties a
  have hadj := hframe.blocks .adj (by decide)
  have hsightings := hframe.blocks .sightings (by decide)
  obtain ⟨hsettled, hline⟩ := State.settle_settled hroom ha ties
  exact ⟨⟨congrArg Adjudicator.nextCall hadj, congrArg Adjudicator.claims hadj, hsightings, hline⟩,
    congrArg Adjudicator.list hadj, ⟨hsettled.carried, hsettled.journal, hsettled.cursor, hsettled.left, hsettled.raised⟩⟩

/-- An outcome weighed at once, with its branches told one by one (R128, R129). -/
theorem WeighedAtOnce.of_entered {t : State} (hattributed : w.attributed ≠ []) (kept : VerdictKept s ties w t)
    (joined : s.adj.list.length < 4 → t = (s.verdictGiven ties w).withList (s.adj.list ++ [w]))
    (displacing : 4 ≤ s.adj.list.length → ∀ old, s.adj.list.find? (fun a => a.state == .holding) = some old →
      t.adj.list = removeAdj old.callId s.adj.list ++ [w] ∧
        SettledTo (s.withLine { s.line with queue := s.line.queue ++ w.verdicts.map Queued.fresh }) ties old t)
    (alone : 4 ≤ s.adj.list.length → s.adj.list.find? (fun a => a.state == .holding) = none →
      t.adj.list = s.adj.list ∧
        SettledTo (s.withLine { s.line with queue := s.line.queue ++ w.verdicts.map Queued.fresh }) ties w t) :
    WeighedAtOnce s ties w t where
  ended h := absurd h hattributed
  given _ := ⟨kept.nextCall, kept.claims, kept.sightings⟩
  joined _ hroom := by
    rw [joined hroom]
    exact ⟨rfl, rfl, rfl, rfl⟩
  displacing _ hfull pre post old hlist hpre hold hids := by
    obtain ⟨hleft, hsettled⟩ := displacing hfull old (hlist ▸ find_holding hpre hold)
    rw [hlist, removeAdj_split hids] at hleft
    exact ⟨hleft, hsettled⟩
  alone _ hfull hnone := alone hfull (List.find?_eq_none.2 fun b hb => by simpa using hnone b hb)

/-- The outcome of a weighing at the opening, once its VERDICT is given, with room for all that it may offer (R128, R129). -/
theorem State.enterWeighed_weighed (room : s.HasRoom 7) (hattributed : w.attributed ≠ []) (hw : w.candidates.length ≤ 24)
    (hlisted : ∀ b ∈ s.adj.list, b.candidates.length ≤ 24) :
    WeighedAtOnce s ties w ((s.verdictGiven ties w).enterWeighed ties w) ∧
      VerdictKept s ties w ((s.verdictGiven ties w).enterWeighed ties w) := by
  have hlist : (s.verdictGiven ties w).adj.list = s.adj.list := rfl
  unfold State.enterWeighed
  rw [hlist]
  by_cases hfree : s.adj.list.length < maxAdjudications
  · have hkept : VerdictKept s ties w ((s.verdictGiven ties w).withList (s.adj.list ++ [w])) := ⟨rfl, rfl, rfl, rfl⟩
    have hnot : ¬4 ≤ s.adj.list.length := Nat.not_le.2 hfree
    rw [if_pos hfree]
    exact ⟨.of_entered hattributed hkept (fun _ => rfl) (fun hfull => absurd hfull hnot) (fun hfull => absurd hfull hnot), hkept⟩
  · have hnot : ¬s.adj.list.length < 4 := hfree
    rw [if_neg hfree]
    cases hfind : s.adj.list.find? (fun a => a.state == .holding) with
    | some old =>
      obtain ⟨hkept, hleft, hsettled⟩ := VerdictKept.settled (ties := ties) room hw (removeAdj old.callId s.adj.list ++ [w])
        (hlisted old (List.mem_of_find?_eq_some hfind))
      refine ⟨.of_entered hattributed hkept (fun h => absurd h hnot) (fun _ x hx => ?_) (fun _ hnone => ?_), hkept⟩
      · obtain rfl := Option.some.inj (hfind.symm.trans hx)
        exact ⟨hleft, hsettled⟩
      · rw [hfind] at hnone
        cases hnone
    | none =>
      obtain ⟨hkept, hleft, hsettled⟩ := VerdictKept.settled (ties := ties) room hw s.adj.list hw
      refine ⟨.of_entered hattributed hkept (fun h => absurd h hnot) (fun _ x hx => ?_) (fun _ _ => ⟨hleft, hsettled⟩), hkept⟩
      rw [hfind] at hx
      cases hx

/-- A weighing at the opening that finds room (R128, R129); of the line only the queue moves. -/
theorem State.weighNew_weighed {x : Adjudication} (room : s.HasRoom 7) (hx : x.candidates.length ≤ 24)
    (hlisted : ∀ b ∈ s.adj.list, b.candidates.length ≤ 24) :
    WeighedAtOnce s ties (s.scales.weigh x) ((s.withAdj { s.adj with nextCall := s.adj.nextCall + 1 }).weighNew ties x) ∧
      ((s.withAdj { s.adj with nextCall := s.adj.nextCall + 1 }).weighNew ties x).line = { s.line with
        queue := ((s.withAdj { s.adj with nextCall := s.adj.nextCall + 1 }).weighNew ties x).line.queue } := by
  have hscales : (s.withAdj { s.adj with nextCall := s.adj.nextCall + 1 }).scales = s.scales := rfl
  have hw : (s.scales.weigh x).candidates.length ≤ 24 := by rwa [Scales.weigh_length]
  unfold State.weighNew
  rw [hscales]
  dsimp only
  by_cases hnone : (s.scales.weigh x).attributed.isEmpty = true
  · rw [if_pos hnone]
    rw [List.isEmpty_iff] at hnone
    exact ⟨⟨fun _ => ⟨rfl, rfl, rfl, rfl, rfl⟩, fun h => absurd hnone h, fun h => absurd hnone h, fun h => absurd hnone h,
      fun h => absurd hnone h⟩, rfl⟩
  · have hparts := (s.scales.weigh x).verdicts_length hw
    rw [if_neg hnone, State.giveVerdict_opening (room.mono (by omega))]
    rw [List.isEmpty_iff] at hnone
    obtain ⟨hweighed, hkept⟩ := State.enterWeighed_weighed (ties := ties) room hnone hw hlisted
    exact ⟨hweighed, hkept.line⟩

end Weighed

/-! ### Any opening -/

/-- The new adjudication of a delivery, told by what it holds (R125 to R127). -/
theorem State.newAdjudication_eq (s : State) (trigger : Trigger) (d : Direction) (a b : Stamp) :
    s.newAdjudication trigger d a b = s.opening trigger d a b := rfl

/-- No CALL is sent to a partner that is missing or whose west face is faulted (R128). -/
theorem State.noPartner_iff (s : State) : s.noPartner = true ↔
    s.neighbours.east.presence ≠ .present ∨ s.neighbours.east.westFault = some true := by simp [State.noPartner]

/-- Under a clash an opening is discarded (R122). -/
theorem State.openAdjudication_clash {s : State} (h : s.neighbours.clash = true) (ties : Ties) (trigger : Trigger)
    (d : Direction) (a b : Stamp) : s.openAdjudication ties trigger d a b = s := if_pos h

/-- With room for 7 notices an opening is what OpenedTo says (R125 to R129). -/
theorem State.openAdjudication_opened {s : State} (room : s.HasRoom 7) (hclash : s.neighbours.clash = false)
    (hlisted : ∀ b ∈ s.adj.list, b.candidates.length ≤ 24) (ties : Ties) (trigger : Trigger) (d : Direction) (a b : Stamp) :
    OpenedTo s ties (s.opening trigger d a b) (s.openAdjudication ties trigger d a b) := by
  have hnew : (s.opening trigger d a b).candidates.length ≤ 24 := by
    rw [← State.newAdjudication_eq, State.newAdjudication, List.length_map]
    exact keepLargest_length _ 24 _
  have hopen : s.openAdjudication ties trigger d a b =
      (if (s.noPartner || decide (4 ≤ s.adj.list.length)) = true then
        (s.withAdj { s.adj with nextCall := s.adj.nextCall + 1 }).weighNew ties (s.opening trigger d a b)
      else (s.withAdj { s.adj with nextCall := s.adj.nextCall + 1 }).callPartner (s.opening trigger d a b)).finishOffers ties :=
    if_neg (by simp [hclash])
  have hweigh : (s.noPartner || decide (4 ≤ s.adj.list.length)) = true ↔ s.neighbours.east.presence ≠ .present ∨
      s.neighbours.east.westFault = some true ∨ 4 ≤ s.adj.list.length := by
    rw [Bool.or_eq_true, State.noPartner_iff, decide_eq_true_eq, or_assoc]
  by_cases h : (s.noPartner || decide (4 ≤ s.adj.list.length)) = true
  · obtain ⟨hweighed, hline⟩ := State.weighNew_weighed (ties := ties) room hnew hlisted
    rw [hopen, if_pos h, State.finishOffers_none ties (by rw [hline]; exact room.quiet)]
    refine ⟨hline, fun hpresent hface hfree => ?_, fun _ => hweighed⟩
    obtain hmissing | hfault | hfull := hweigh.1 h
    · exact absurd hpresent hmissing
    · exact absurd hfault hface
    · omega
  · have hcall : (s.withAdj { s.adj with nextCall := s.adj.nextCall + 1 }).callPartner (s.opening trigger d a b) =
        (s.withAdj { s.adj with nextCall := s.adj.nextCall + 1, list := s.adj.list ++ [s.opening trigger d a b] }).withLine
          { s.line with queue := s.line.queue ++
            [Queued.fresh (.call (s.opening trigger d a b).callId (BitVec.ofNat 8 (s.opening trigger d a b).lane)
              (s.opening trigger d a b).windowStart (s.opening trigger d a b).windowEnd)] } :=
      State.offer_room (s := s.withAdj
        { s.adj with nextCall := s.adj.nextCall + 1, list := s.adj.list ++ [s.opening trigger d a b] })
        ⟨room.awake, (room.mono (m := 1) (by omega)).fits, room.quiet⟩ _
    rw [hopen, if_neg h, hcall, State.finishOffers_none (s := State.withLine _ _) ties (by exact room.quiet)]
    exact ⟨rfl, fun _ _ _ => ⟨rfl, rfl, rfl, rfl, rfl⟩, fun hw => absurd (hweigh.2 hw) h⟩

/-! ### FADE triggers -/

/-- The FADE triggers of a frame start, told by the records before they fade (R58, R87). -/
theorem fadingReports_triggers (now : Stamp) (t : List Record) : (fadingReports now t).filter fadeTriggers =
    (t.filter (fun x => x.state == .live && 25 ≤ stampDiff x.lastStamp now && 0 < x.reads && (x.unissued || x.watched) &&
      x.westSum ≤ x.eastSum)).map (fun r => { r with state := .fading }) := by
  rw [fadingReports, List.filter_map, List.filter_filter]
  congr 1
  refine List.filter_congr fun r _ => ?_
  have hfades : r.fades now = (r.state == .live && decide (25 ≤ stampDiff r.lastStamp now)) := rfl
  simp only [Function.comp_apply, fadeTriggers, hfades]
  ac_rfl

/-- The triggers delivered one after another (R58, R87, R122, R126). -/
theorem FadesTo.of_foldl (ties : Ties) : ∀ (reports : List Record) (s : State),
    FadesTo ties s reports (reports.foldl (fun u r => u.deliverFade ties r) s)
  | [], _ => rfl
  | r :: rest, s => ⟨s.deliverFade ties r, FadesTo.of_foldl ties rest _, (s.deliverFade_frame ties r).mono (by decide),
      fun hclash => State.openAdjudication_clash hclash _ _ _ _ _,
      fun hclash room hlisted => State.openAdjudication_opened room hclash hlisted ties .fade .undirected _ _⟩

/-- RECORD_FADE in TAG_ONLY with the key not in SERVICE (R58, R87): a trigger is told by the stamps of its record, which fading leaves. -/
theorem exec_recordFade_triggers {s : State} (htag : s.lane.passage = .tagOnly) (hkey : s.startup.key ≠ .service)
    (ties : Ties) :
    exec (.recordFade ties) s = .next ((s.sightings.filter (fun x => x.state == .live &&
      25 ≤ stampDiff x.lastStamp s.stamp && 0 < x.reads && (x.unissued || x.watched) && x.westSum ≤ x.eastSum)).foldl
        (fun u r => u.deliverFade ties r) (s.withSightings (s.sightings.map (fun x =>
          if x.state = .live ∧ 25 ≤ stampDiff x.lastStamp s.stamp then { x with state := .fading } else x)))) := by
  change execRecordFade ties s = _
  rw [execRecordFade, if_pos (s.takesFades_iff.2 ⟨htag, hkey⟩), fadingReports_triggers, List.foldl_map, fadeRecords_eq]
  rfl

/-- Settles O31: the triggers are a fold of deliveries, and one trigger is the fold of one. -/
theorem fadeTriggerCallsPartner : Obligations.FadeTriggerCallsPartner := by
  unfold Obligations.FadeTriggerCallsPartner
  have hall : ∀ (s : State) (ties : Ties) (reports faded : List Record), s.lane.passage = .tagOnly → s.startup.key ≠ .service →
      reports = s.sightings.filter (fun x => x.state == .live && 25 ≤ stampDiff x.lastStamp s.stamp && 0 < x.reads &&
        (x.unissued || x.watched) && x.westSum ≤ x.eastSum) →
      faded = s.sightings.map (fun x =>
        if x.state = .live ∧ 25 ≤ stampDiff x.lastStamp s.stamp then { x with state := .fading } else x) →
      ∃ t, exec (.recordFade ties) s = .next t ∧ SameBut s [.sightings, .adj, .line, .carried, .alarm] t ∧
        FadesTo ties (s.withSightings faded) reports t := by
    intro s ties reports faded htag hkey hreports hfaded
    subst hreports hfaded
    refine ⟨_, exec_recordFade_triggers htag hkey ties, ?_, FadesTo.of_foldl ties _ _⟩
    exact (s.withSightings_frame _).then (SameBut.foldl (fun u r => u.deliverFade_frame ties r) _ _) (by simp) (by decide)
  refine ⟨hall, fun s ties r faded a htag hkey hone hfaded ha => ?_⟩
  obtain ⟨t, hexec, hframe, u, rfl, -, hclashed, hopened⟩ := hall s ties [r] faded htag hkey hone.symm hfaded
  subst ha
  refine ⟨fun hclash => ⟨_, hexec, ?_, ?_⟩, fun hclash room hlisted => ⟨_, hexec, hframe, hopened hclash
    ⟨room.awake, room.fits, room.quiet⟩ hlisted⟩⟩
  · rw [hclashed hclash]
    exact s.withSightings_frame _
  · rw [hclashed hclash]
    rfl

end Sys2Proof.Machine
end

section
/-! CERTIFICATE. Every step keeps the lane monitor in the states of Table 5-1 (R83, R85, R86, R88): the works that reach the lane monitor are
the frame start, the filter tick, a stuck beam, a change of number, a joining, a resume and the resets. -/

namespace Sys2Proof.Machine

/-! ### The works that reach the lane monitor -/

/-- Work that leaves the lane monitor alone keeps it sound. -/
theorem SameBut.lane_sound {s t : State} {bs : List Block} (h : SameBut s bs t) (hb : .lane ∉ bs) (hs : s.lane.Sound) :
    t.lane.Sound := by
  rwa [h.blocks .lane hb]

theorem LaneMonitor.reset_sound : LaneMonitor.reset.Sound := by
  constructor <;> simp [LaneMonitor.reset, Beam.reset, Passage.beams, Passage.inProgress]

section Works

variable {s : State} (h : s.lane.Sound)
include h

theorem State.frameStartEvent_lane_sound (st : Stamp) (off at0 : Nat) (adopted : Bool) (view : StatusView) :
    (s.frameStartEvent st off at0 adopted view).lane.Sound := by
  rw [State.frameStartEvent_lane]
  exact LaneMonitor.frameStart_sound h st

theorem State.joinAt_lane_sound (n : BitVec 16) (off : Nat) (adopted : Bool) : (s.joinAt n off adopted).lane.Sound := by
  rw [State.joinAt_lane]
  exact LaneMonitor.frameStart_sound (LaneMonitor.restamp_sound h _) _

/-- A change of number gives a passage in progress another start stamp (R17). -/
theorem State.numberChanged_lane_sound : s.numberChanged.lane.Sound := by
  have hlane : s.abandonAll.withdrawEvidence.lane.Sound :=
    (s.abandonAll_frame.then (State.withdrawEvidence_frame _) (ds := [.line, .adj]) (by simp) (by simp)).lane_sound (by decide) h
  exact LaneMonitor.restamp_sound hlane _

theorem State.phaseAction_lane_sound (b : PendingBreak) (n m : BitVec 16) (d : Byte) (e dd : Int) :
    (s.phaseAction b n m d e dd).lane.Sound := by
  unfold State.phaseAction
  dsimp only
  split_ifs
  · exact h
  · exact State.frameStartEvent_lane_sound h _ _ _ _ _
  · exact h
  · exact h
  · exact State.frameStartEvent_lane_sound (s := s.withField _) h _ _ _ _ _

theorem State.judgeCadence_lane_sound (b : PendingBreak) (n : BitVec 16) (d : Byte) : (s.judgeCadence b n d).lane.Sound := by
  have hphase := State.phaseAction_lane_sound
    (s := s.withCadence { s.cadence with lastQualifying := some s.freeRun, selfLed := false }) h b n
    (ownNumber b (breakError b d)) d (breakError b d) (phaseOffset (breakError b d))
  unfold State.judgeCadence
  dsimp only
  split_ifs
  · exact hphase
  · exact State.numberChanged_lane_sound hphase
  · exact h

theorem State.adoptListening_lane_sound (b : PendingBreak) (n : BitVec 16) (d : Byte) :
    (s.adoptListening b n d).lane.Sound := by
  refine State.joinAt_lane_sound ?_ _ _ _
  split_ifs
  · exact h
  · exact State.numberChanged_lane_sound (s := s.withCadence _) h

theorem State.hearCadence_lane_sound (n : BitVec 16) (d : Byte) : (s.hearCadence n d).lane.Sound := by
  unfold State.hearCadence
  split
  · exact State.adoptListening_lane_sound h _ _ _
  · exact State.judgeCadence_lane_sound (s := s.dropBreak) h _ _ _
  · exact h

end Works

/-- What a filter tick leads to leaves the lane monitor as the tick put it (R80, R166, R182). -/
theorem State.takeLaneEvent_lane (s : State) (ev : LaneEvent) (order : TickOrder) (raw : Option KeyPosition) :
    (s.takeLaneEvent ev order raw).lane = s.lane := by
  unfold State.takeLaneEvent
  split_ifs
  · rw [(State.takePassage_frame _ _).blocks .lane (by decide), (State.keyAt_frame _ _ _ _).blocks .lane (by decide),
      (State.takeClear_frame _ _).blocks .lane (by decide)]
  · rw [(State.takeClear_frame _ _).blocks .lane (by decide), (State.keyAt_frame _ _ _ _).blocks .lane (by decide),
      (State.takePassage_frame _ _).blocks .lane (by decide)]

theorem State.sampleBeams_lane (s : State) (i o : Bool) (order : TickOrder) (raw : Option KeyPosition) :
    (s.sampleBeams i o order raw).lane = (s.lane.tick s.endPedestal s.stamp i o).1 :=
  State.takeLaneEvent_lane _ _ _ _

theorem State.sampleInputs_lane_sound {s : State} (h : s.lane.Sound) (i o : Bool) (order : TickOrder)
    (raw : Option KeyPosition) : (s.sampleInputs i o order raw).lane.Sound := by
  refine (State.keyAt_frame _ _ _ _).lane_sound (by decide) ?_
  rw [State.sampleBeams_lane]
  exact LaneMonitor.tick_sound ((State.keyAt_frame _ _ _ _).lane_sound (by decide) h) _ _ _ _

/-! ### The commands -/

/-- The command answers a next state whose lane monitor is sound. -/
def LandsSound (c : Instr) (s : State) : Prop := ∃ t, exec c s = .next t ∧ t.lane.Sound

section Commands

variable {s : State} (h : s.lane.Sound)
include h

/-- A command that does not reach the lane monitor. -/
theorem Moves.lands_sound {bs : List Block} {c : Instr} (hmoves : Moves bs c s) (hb : .lane ∉ bs) : LandsSound c s := by
  obtain ⟨t, hexec, hframe⟩ := hmoves
  exact ⟨t, hexec, hframe.lane_sound hb h⟩

theorem exec_holdResume_lands_sound : LandsSound .holdResume s := by
  have hresume : s.resume.lane.Sound := LaneMonitor.resume_sound h
  refine ⟨_, rfl, ?_⟩
  split_ifs
  · split
    · exact hresume
    · exact hresume
    · exact (State.beginListening_frame _ _).lane_sound (by decide) hresume
    · exact h
  · exact h

theorem exec_listeningExpiry_lands_sound : LandsSound .listeningExpiry s := by
  refine ⟨_, rfl, ?_⟩
  split_ifs
  · refine State.joinAt_lane_sound ?_ _ _ _
    rw [State.withCadence_lane]
    exact (s.toTick_frame _).lane_sound (by decide) h
  · exact h

theorem exec_frameStart_lands_sound (view : StatusView) : LandsSound (.frameStart view) s := by
  refine ⟨_, rfl, ?_⟩
  split_ifs
  · refine (State.finishOffers_frame _ _).lane_sound (by decide) ?_
    exact State.frameStartEvent_lane_sound ((s.toOffset_frame _).lane_sound (by decide) h) _ _ _ _ _
  · exact h

theorem exec_filterTick_lands_sound (i o a v : Bool) (order : TickOrder) : LandsSound (.filterTick i o a v order) s := by
  have htick : s.toFilterTick.lane.Sound := s.toFilterTick_frame.lane_sound (by decide) h
  refine ⟨_, rfl, ?_⟩
  dsimp only
  split_ifs
  · exact (State.finishOffers_frame _ _).lane_sound (by decide) (State.sampleInputs_lane_sound htick _ _ _ _)
  · exact htick
  · exact h

theorem exec_receiveCadence_lands_sound : LandsSound .receiveCadence s := by
  refine ⟨_, rfl, ?_⟩
  split
  · refine (State.finishOffers_frame _ _).lane_sound (by decide) ?_
    exact State.hearCadence_lane_sound ((s.takeNotice_frame _).lane_sound (by decide) h) _ _
  · exact h

end Commands

theorem exec_lands_sound (c : Instr) {s : State} (h : s.lane.Sound) : LandsSound c s := by
  cases c with
  | powerOnReset => exact ⟨_, rfl, LaneMonitor.reset_sound⟩
  | serviceReset => exact ⟨_, rfl, LaneMonitor.reset_sound⟩
  | holdResume => exact exec_holdResume_lands_sound h
  | listeningExpiry => exact exec_listeningExpiry_lands_sound h
  | frameStart view => exact exec_frameStart_lands_sound h view
  | filterTick i o a v order => exact exec_filterTick_lands_sound h i o a v order
  | beamStuck => exact ⟨_, rfl, LaneMonitor.raiseStuck_sound h⟩
  | receiveCadence => exact exec_receiveCadence_lands_sound h
  | resetEnd => exact (exec_resetEnd_moves s).lands_sound h (by decide)
  | strapsSample p r => exact (exec_strapsSample_moves s p r).lands_sound h (by decide)
  | configTransferComplete w b => exact (exec_configTransferComplete_moves s w b).lands_sound h (by decide)
  | configNoResponse k => exact (exec_configNoResponse_moves s k).lands_sound h (by decide)
  | supplyHold w => exact (exec_supplyHold_moves s w).lands_sound h (by decide)
  | markSend => exact (exec_markSend_moves s).lands_sound h (by decide)
  | markAbandon => exact (exec_markAbandon_moves s).lands_sound h (by decide)
  | breakReleaseTimeout => exact (exec_breakReleaseTimeout_moves s).lands_sound h (by decide)
  | transmitWindowEnd => exact (exec_transmitWindowEnd_moves s).lands_sound h (by decide)
  | slotEnd j w e x y => exact (exec_slotEnd_moves s j w e x y).lands_sound h (by decide)
  | coilCheck w e => exact (exec_coilCheck_moves s w e).lands_sound h (by decide)
  | recordFade x => exact (exec_recordFade_moves s x).lands_sound h (by decide)
  | recordAgeFree => exact (exec_recordAgeFree_moves s).lands_sound h (by decide)
  | strayMark => exact (exec_strayMark_moves s).lands_sound h (by decide)
  | breakRecognized l => exact (exec_breakRecognized_moves s l).lands_sound h (by decide)
  | quietEnd => exact (exec_quietEnd_moves s).lands_sound h (by decide)
  | framingError l => exact (exec_framingError_moves s l).lands_sound h (by decide)
  | receiverIdleTimeout => exact (exec_receiverIdleTimeout_moves s).lands_sound h (by decide)
  | noticeStart => exact (exec_noticeStart_moves s).lands_sound h (by decide)
  | collision b => exact (exec_collision_moves s b).lands_sound h (by decide)
  | noticeSent => exact (exec_noticeSent_moves s).lands_sound h (by decide)
  | noticeInvalid => exact (exec_noticeInvalid_moves s).lands_sound h (by decide)
  | receiveStatus => exact (exec_receiveStatus_moves s).lands_sound h (by decide)
  | receiveCall => exact (exec_receiveCall_moves s).lands_sound h (by decide)
  | receiveEvidence => exact (exec_receiveEvidence_moves s).lands_sound h (by decide)
  | evidenceDeadline x => exact (exec_evidenceDeadline_moves s x).lands_sound h (by decide)
  | receiveVerdict => exact (exec_receiveVerdict_moves s).lands_sound h (by decide)
  | holdExpiry x => exact (exec_holdExpiry_moves s x).lands_sound h (by decide)
  | receiveSettlement => exact (exec_receiveSettlement_moves s).lands_sound h (by decide)
  | receiveAlarm => exact (exec_receiveAlarm_moves s).lands_sound h (by decide)
  | receiveAck => exact (exec_receiveAck_moves s).lands_sound h (by decide)
  | receiveJournalCall => exact (exec_receiveJournalCall_moves s).lands_sound h (by decide)
  | receiveJournal => exact (exec_receiveJournal_moves s).lands_sound h (by decide)
  | neighbourAbsent => exact (exec_neighbourAbsent_moves s).lands_sound h (by decide)
  | lineSilent => exact (exec_lineSilent_moves s).lands_sound h (by decide)
  | clashClear => exact (exec_clashClear_moves s).lands_sound h (by decide)
  | claimExpiry => exact (exec_claimExpiry_moves s).lands_sound h (by decide)
  | carriedInExpiry => exact (exec_carriedInExpiry_moves s).lands_sound h (by decide)
  | characterReceived w v k => exact (exec_characterReceived_moves s w v k).lands_sound h (by decide)

/-- Settles O7: a step runs the front command on the state with the rest of the queue, whose lane monitor is the same. -/
theorem laneSoundKept : Obligations.LaneSoundKept := by
  unfold Obligations.LaneSoundKept
  intro s t hsound hstep
  unfold step at hstep
  split at hstep
  case h_1 =>
    obtain rfl := Host.Outcome.next.inj hstep
    exact hsound
  case h_2 c rest _ =>
    obtain ⟨u, hexec, hlands⟩ := exec_lands_sound c (s := { s with pending := rest }) hsound
    obtain rfl := Host.Outcome.next.inj (hexec.symm.trans hstep)
    exact hlands

end Sys2Proof.Machine
end

section
/-! CERTIFICATE. Passages: the state that one completes from is its direction, and the ticks that enter CLEAR (R73 to R80). -/

namespace Sys2Proof.Machine

/-! ### The transitions of Table 5-2 -/

/-- A passage completes only from a state that closes it or spans both beams, and the state is its direction (R74 to R77, R79). -/
theorem Passage.move_complete {p : Passage} {ci co : Change} {d : Direction} (h : p.move ci co = .complete d) :
    (p = .outClosing ∧ d = .outbound) ∨ (p = .inClosing ∧ d = .inbound) ∨
      ((p = .outSpanned ∨ p = .inSpanned ∨ p = .bothSpanned) ∧ d = .undirected) := by
  unfold Passage.move at h
  split at h <;> cases h <;> simp

/-- A balk is a return from an opening state (R77). -/
theorem Passage.move_balk {p : Passage} {ci co : Change} (h : p.move ci co = .balk) : p = .outOpening ∨ p = .inOpening := by
  unfold Passage.move at h
  split at h <;> cases h <;> simp

/-- No other transition enters CLEAR. -/
theorem Passage.move_to_clear {p : Passage} {ci co : Change} (h : p.move ci co = .to .clear) : p = .clear := by
  unfold Passage.move at h
  split at h <;> cases h
  rfl

/-! ### The reaction to a tick -/

theorem stampDiff_self (a : Stamp) : stampDiff a a = 0 := by simp [stampDiff]

/-- A passage built at a completion ends now, and its start is not later (R79). -/
theorem completedAt_spec (d : Direction) (start : Option Stamp) (now : Stamp) :
    (completedAt d start now).direction = d ∧ (completedAt d start now).endStamp = now ∧
      0 ≤ stampDiff (completedAt d start now).startStamp now := by
  refine ⟨rfl, rfl, ?_⟩
  dsimp only [completedAt]
  split_ifs with hlater
  · rw [stampDiff_self]
  · exact Int.not_lt.1 hlater

/-- What a tick of a lane monitor may report (R77 to R80): nothing, an entry to CLEAR, or a passage completed in a state that Table 5-2
completes. -/
inductive Reported (p : Passage) (start : Option Stamp) (now : Stamp) : LaneMonitor × LaneEvent → Prop
  | nothing {m : LaneMonitor} (same : m.passage = .clear → p = .clear) : Reported p start now (m, .nothing)
  | cleared {m : LaneMonitor} (left : p ≠ .clear) (entered : m.passage = .clear) : Reported p start now (m, ⟨none, true⟩)
  | completed {m : LaneMonitor} {d : Direction} {ci co : Change} (move : p.move ci co = .complete d) (entered : m.passage = .clear)
    (unstamped : m.startStamp = none) : Reported p start now (m, ⟨some (completedAt d start now), true⟩)

theorem LaneMonitor.waitClear_reported {l : LaneMonitor} {p : Passage} (hp : p ≠ .clear) (start : Option Stamp) (now : Stamp) :
    Reported p start now l.waitClear := by
  unfold LaneMonitor.waitClear
  split_ifs
  · exact .nothing nofun
  · exact .cleared hp rfl

theorem LaneMonitor.react_reported (l : LaneMonitor) (now : Stamp) (ci co : Change) :
    Reported l.passage l.startStamp now (l.react now ci co) := by
  unfold LaneMonitor.react
  split
  case h_1 hp => exact waitClear_reported (by simp [hp]) _ _
  case h_2 hp =>
    split_ifs
    · exact .nothing id
    · exact waitClear_reported (by simp [hp]) _ _
  case h_3 =>
    split
    case h_1 hmove => exact .cleared (by obtain h | h := Passage.move_balk hmove <;> simp [h]) rfl
    case h_2 d hmove => exact .completed hmove rfl rfl
    case h_3 q hmove =>
      have hclear : q = .clear → l.passage = .clear := fun hq => Passage.move_to_clear (hq ▸ hmove)
      split_ifs
      · exact .nothing hclear
      · exact .nothing hclear

/-- A tick of a monitor at work is its reaction to the filtered changes (R71, R73). -/
theorem LaneMonitor.tick_started {l : LaneMonitor} (h : l.started = true) (now : Stamp) (i o : Bool) :
    l.tick false now i o = LaneMonitor.react { l with inner := (l.inner.sample i).1, outer := (l.outer.sample o).1 } now
      (l.inner.sample i).2 (l.outer.sample o).2 := by
  simp [LaneMonitor.tick, h]

theorem LaneMonitor.tick_reported {l : LaneMonitor} (h : l.started = true) (now : Stamp) (i o : Bool) :
    Reported l.passage l.startStamp now (l.tick false now i o) := by
  rw [LaneMonitor.tick_started h]
  exact LaneMonitor.react_reported { l with inner := (l.inner.sample i).1, outer := (l.outer.sample o).1 } now _ _

/-- Settles O34, by what a tick may report. -/
theorem passagesCompleteByDirection : Obligations.PassagesCompleteByDirection := by
  unfold Obligations.PassagesCompleteByDirection
  intro l now i o _ hstarted
  have hreported := LaneMonitor.tick_reported hstarted now i o
  generalize l.tick false now i o = r at hreported ⊢
  cases hreported with
  | nothing same => exact ⟨⟨nofun, fun ⟨hleft, hentered⟩ => absurd (same hentered) hleft⟩, nofun⟩
  | cleared left entered => exact ⟨⟨fun _ => ⟨left, entered⟩, fun _ => rfl⟩, nofun⟩
  | @completed m d ci co move entered unstamped =>
    obtain ⟨hdirection, hend, hstart⟩ := completedAt_spec d l.startStamp now
    have hmove := Passage.move_complete move
    have hleft : l.passage ≠ .clear := by
      intro hclear
      simp [hclear] at hmove
    refine ⟨⟨fun _ => ⟨hleft, entered⟩, fun _ => rfl⟩, ?_⟩
    rintro p hbuilt
    obtain rfl := Option.some.inj hbuilt
    refine ⟨entered, unstamped, rfl, hend, hstart, ?_⟩
    rw [hdirection]
    obtain ⟨hp, rfl⟩ | ⟨hp, rfl⟩ | ⟨hp | hp | hp, rfl⟩ := hmove <;> simp [hp]

end Sys2Proof.Machine
end

section
/-! CERTIFICATE. BEAM_STUCK: which beams are raised, and the lane that goes to TAG_ONLY (R86, R88). -/

namespace Sys2Proof.Machine

theorem Beam.raiseStuck_due {b : Beam} (h : b.broken = true ∧ 1500 ≤ b.duration) : b.raiseStuck = { b with stuck := true } :=
  if_pos h.symm

theorem Beam.raiseStuck_not_due {b : Beam} (h : ¬(b.broken = true ∧ 1500 ≤ b.duration)) : b.raiseStuck = b :=
  if_neg fun hdue => h hdue.symm

theorem Beam.raiseStuck_eq (b : Beam) :
    b.raiseStuck = { b with stuck := b.stuck || decide (b.broken = true ∧ 1500 ≤ b.duration) } := by
  by_cases h : b.broken = true ∧ 1500 ≤ b.duration
  · simp [Beam.raiseStuck_due h, h]
  · simp [Beam.raiseStuck_not_due h, h]

/-- A beam whose fault stands already is left as it is. -/
theorem Beam.raiseStuck_standing {b : Beam} (h : b.broken = true → 1500 ≤ b.duration → b.stuck = true) : b.raiseStuck = b := by
  by_cases hdue : b.broken = true ∧ 1500 ≤ b.duration
  · rw [Beam.raiseStuck_due hdue, ← h hdue.1 hdue.2]
  · exact Beam.raiseStuck_not_due hdue

/-- The lane with a STUCK beam after the faults are raised (R86). -/
theorem LaneMonitor.raiseStuck_tagOnly {l : LaneMonitor} (h : l.inner.raiseStuck.stuck = true ∨ l.outer.raiseStuck.stuck = true) :
    l.raiseStuck = { l with
      inner := l.inner.raiseStuck, outer := l.outer.raiseStuck, passage := .tagOnly, startStamp := none, clearRun := 0 } :=
  if_pos (by simpa using h)

/-- The lane with no STUCK beam. -/
theorem LaneMonitor.raiseStuck_free {l : LaneMonitor} (hi : l.inner.raiseStuck.stuck = false)
    (ho : l.outer.raiseStuck.stuck = false) :
    l.raiseStuck = { l with inner := l.inner.raiseStuck, outer := l.outer.raiseStuck } :=
  if_neg (by simp [hi, ho])

/-- A sound lane in another state than TAG_ONLY has no STUCK beam (R86, R88). -/
theorem LaneMonitor.Sound.unstuck {l : LaneMonitor} (h : l.Sound) (hp : l.passage ≠ .tagOnly) :
    l.inner.stuck = false ∧ l.outer.stuck = false := by
  have hnone := mt h.tagOnly.2 hp
  simpa using hnone

/-- Settles O37: which beams are due decides whether the lane goes to TAG_ONLY. -/
theorem stuckBeamsRaised : Obligations.StuckBeamsRaised := by
  unfold Obligations.StuckBeamsRaised
  intro s
  refine ⟨s.withLane s.lane.raiseStuck, rfl, s.withLane_frame _, fun hdue => ?_, fun hsound hi ho htag => ?_,
    fun hsound htag hi ho => ?_⟩
  · have hstuck : s.lane.inner.raiseStuck.stuck = true ∨ s.lane.outer.raiseStuck.stuck = true :=
      hdue.imp (fun h => by rw [Beam.raiseStuck_due h]) (fun h => by rw [Beam.raiseStuck_due h])
    rw [State.withLane_lane, LaneMonitor.raiseStuck_tagOnly hstuck, ← Beam.raiseStuck_eq, ← Beam.raiseStuck_eq]
  · obtain ⟨hinner, houter⟩ := hsound.unstuck htag
    rw [← Beam.raiseStuck_not_due hi] at hinner
    rw [← Beam.raiseStuck_not_due ho] at houter
    rw [State.withLane_lane, LaneMonitor.raiseStuck_free hinner houter, Beam.raiseStuck_not_due hi, Beam.raiseStuck_not_due ho]
  · have hstuck := hsound.tagOnly.1 htag
    have hstart : s.lane.startStamp = none := by
      have := hsound.start
      simpa [htag, Passage.inProgress] using this
    have hrun : s.lane.clearRun = 0 := hsound.run (by simp [htag])
    rw [← Beam.raiseStuck_standing hi, ← Beam.raiseStuck_standing ho] at hstuck
    rw [State.withLane_lane, LaneMonitor.raiseStuck_tagOnly hstuck, Beam.raiseStuck_standing hi, Beam.raiseStuck_standing ho, ← htag,
      ← hstart, ← hrun]

end Sys2Proof.Machine
end

section
/-! SUPPORT. How far an opening that finds room fills the queue, and that no opening makes a latch wait for the lane (R128, R129, R160). -/

namespace Sys2Proof.Machine

/-- From `s` to `t` at most `n` notices more stand in the queue, and a latch that does not wait for the lane does not begin to. -/
structure OffersWithin (n : Nat) (s t : State) : Prop where
  queue : t.line.queue.length ≤ s.line.queue.length + n
  latch : s.alarm.latch.clearPending = false → t.alarm.latch.clearPending = false

/-- A settlement offers at most 3 parts and an ALARM, and the latch that it raises does not wait (R148, R160, R161). -/
theorem SettledTo.within {s t : State} {ties : Ties} {a : Adjudication} (h : SettledTo s ties a t) (few : a.candidates.length ≤ 24) :
    OffersWithin 4 s t := by
  have hparts := a.settlements_length few
  by_cases halarm : ∃ c ∈ a.candidates, c.kind = some .alarm ∧ c.yielded = false
  · obtain ⟨hlatch, hqueue⟩ := h.raised halarm _ _ _ rfl rfl rfl
    refine ⟨?_, fun _ => by rw [hlatch]⟩
    rw [hqueue, List.length_append, List.length_map, List.length_append, List.length_singleton]
    omega
  · obtain ⟨hlatch, hqueue⟩ := h.left (by simpa using halarm)
    refine ⟨?_, fun hidle => by rwa [hlatch]⟩
    rw [hqueue, List.length_append, List.length_map]
    omega

section Opening

variable {s : State} {ties : Ties}

/-- An adjudication that settles after the VERDICT of an opening (R129). -/
theorem State.settle_verdictGiven_within {w a : Adjudication} (room : s.HasRoom 7) (hw : w.candidates.length ≤ 24)
    (l : List Adjudication) (ha : a.candidates.length ≤ 24) :
    OffersWithin 7 s (((s.verdictGiven ties w).withList l).settle ties a) := by
  obtain ⟨-, -, hsettled⟩ := VerdictKept.settled (ties := ties) room hw l ha
  obtain ⟨hqueue, hlatch⟩ := hsettled.within ha
  have hparts := w.verdicts_length hw
  refine ⟨hqueue.trans ?_, hlatch⟩
  rw [State.withLine_line, List.length_append, List.length_map]
  omega

theorem State.enterWeighed_within {w : Adjudication} (room : s.HasRoom 7) (hw : w.candidates.length ≤ 24)
    (hlisted : ∀ b ∈ s.adj.list, b.candidates.length ≤ 24) :
    OffersWithin 7 s ((s.verdictGiven ties w).enterWeighed ties w) := by
  unfold State.enterWeighed
  split_ifs
  · have hparts := w.verdicts_length hw
    refine ⟨?_, id⟩
    change (s.line.queue ++ w.verdicts.map Queued.fresh).length ≤ _
    rw [List.length_append, List.length_map]
    omega
  · split
    case h_1 old hfind => exact State.settle_verdictGiven_within room hw _ (hlisted old (List.mem_of_find?_eq_some hfind))
    case h_2 => exact State.settle_verdictGiven_within room hw s.adj.list hw

theorem State.weighNew_within {x : Adjudication} (room : s.HasRoom 7) (hx : x.candidates.length ≤ 24)
    (hlisted : ∀ b ∈ s.adj.list, b.candidates.length ≤ 24) :
    OffersWithin 7 s ((s.withAdj { s.adj with nextCall := s.adj.nextCall + 1 }).weighNew ties x) := by
  have hw : (s.scales.weigh x).candidates.length ≤ 24 := by rwa [Scales.weigh_length]
  have hparts := (s.scales.weigh x).verdicts_length hw
  change OffersWithin 7 s (if (s.scales.weigh x).attributed.isEmpty then _ else _)
  split_ifs
  · exact ⟨Nat.le_add_right _ _, id⟩
  · change OffersWithin 7 s (((s.withAdj { s.adj with nextCall := s.adj.nextCall + 1 }).giveVerdict ties
      (s.scales.weigh x)).enterWeighed ties (s.scales.weigh x))
    rw [State.giveVerdict_opening (room.mono (by omega))]
    exact State.enterWeighed_within room hw hlisted

/-- An opening that finds room for 7 notices (R125 to R129); no drop report waits after it. -/
theorem State.openAdjudication_within (room : s.HasRoom 7) (hlisted : ∀ b ∈ s.adj.list, b.candidates.length ≤ 24)
    (trigger : Trigger) (d : Direction) (a b : Stamp) : OffersWithin 7 s (s.openAdjudication ties trigger d a b) := by
  have hnew : (s.newAdjudication trigger d a b).candidates.length ≤ 24 := by
    rw [State.newAdjudication, List.length_map]
    exact keepLargest_length _ 24 _
  change OffersWithin 7 s (if s.neighbours.clash then s else State.finishOffers (if _ then _ else _) ties)
  split_ifs
  · exact ⟨Nat.le_add_right _ _, id⟩
  · obtain ⟨-, hline⟩ := State.weighNew_weighed (ties := ties) room hnew hlisted
    rw [State.finishOffers_none ties (by rw [hline]; exact room.quiet)]
    exact State.weighNew_within room hnew hlisted
  · have hcall : ∀ adj : Adjudicator, ∀ n : Notice, (s.withAdj adj).offer n = (s.withAdj adj).withLine
        { s.line with queue := s.line.queue ++ [Queued.fresh n] } := fun adj n =>
      State.offer_room (s := s.withAdj adj) ⟨room.awake, (room.mono (m := 1) (by omega)).fits, room.quiet⟩ n
    change OffersWithin 7 s (State.finishOffers (State.offer (s.withAdj _) _) ties)
    rw [hcall, State.finishOffers_none (s := State.withLine _ _) ties (by exact room.quiet)]
    refine ⟨?_, id⟩
    rw [State.withLine_line, List.length_append, List.length_singleton]
    omega

end Opening

end Sys2Proof.Machine
end

section
/-! SUPPORT. What a filter tick moves besides its works: time, the lane monitor and the staff key's waiting sample. What an opening and the
return-to-CLEAR report do does not depend on it (R3, R71, R80, R166, R182). -/

namespace Sys2Proof.Machine

/-- From `s` to `t` a filter tick has moved no more than its own time within the frame, the lane monitor, and the sample of the staff key
that waits. -/
structure Ticked (s t : State) : Prop where
  frame : SameBut s [.cadence, .lane, .startup] t
  stamp : t.stamp = s.stamp
  join : t.cadence.join = s.cadence.join
  startup : t.startup = { s.startup with keyPending := t.startup.keyPending }

/-! ### What a tick leaves -/

theorem Ticked.refl (s : State) : Ticked s s := ⟨.refl s _, rfl, rfl, rfl⟩

theorem Ticked.trans {s t u : State} (h : Ticked s t) (k : Ticked t u) : Ticked s u :=
  ⟨h.frame.trans k.frame, k.stamp.trans h.stamp, k.join.trans h.join, by rw [k.startup, h.startup]⟩

/-- Another lane. -/
theorem State.withLane_ticked (s : State) (l : LaneMonitor) : Ticked s (s.withLane l) :=
  ⟨(s.withLane_frame l).mono (by decide), rfl, rfl, rfl⟩

/-- Another sample of the key that waits. -/
theorem State.withPending_ticked (s : State) (k : Option KeyPosition) :
    Ticked s (s.withStartup { s.startup with keyPending := k }) :=
  ⟨(s.withStartup_frame _).mono (by decide), rfl, rfl, rfl⟩

/-- Time passes to the filter tick (R3). -/
theorem State.toFilterTick_ticked (s : State) : Ticked s s.toFilterTick := by
  obtain ⟨c, htime, hsame⟩ := s.advance_cases (s.cadence.nextFilter * Config.unitsPerTick - s.cadence.clock)
  have htick : s.toFilterTick = s.withCadence { c with nextFilter := c.nextFilter + 32 } := by
    rw [State.toFilterTick, State.toTick, State.toMoment, htime]
    rfl
  rw [htick]
  unfold Cadence.sameButTime at hsame
  refine ⟨(s.withCadence_frame _).mono (by decide), ?_, ?_, rfl⟩ <;> rw [hsame] <;> rfl

section Same

variable {s t : State} (h : Ticked s t)
include h

theorem Ticked.line : t.line = s.line := h.frame.blocks .line (by decide)
theorem Ticked.adj : t.adj = s.adj := h.frame.blocks .adj (by decide)
theorem Ticked.sightings : t.sightings = s.sightings := h.frame.blocks .sightings (by decide)
theorem Ticked.carried : t.carried = s.carried := h.frame.blocks .carried (by decide)
theorem Ticked.alarm : t.alarm = s.alarm := h.frame.blocks .alarm (by decide)
theorem Ticked.neighbours : t.neighbours = s.neighbours := h.frame.blocks .neighbours (by decide)
theorem Ticked.sampler : t.sampler = s.sampler := h.frame.blocks .sampler (by decide)

theorem Ticked.settings : t.settings = s.settings := by
  unfold State.settings
  rw [h.startup]

theorem Ticked.position : t.position = s.position := by
  unfold State.position
  rw [h.startup]

theorem Ticked.endPedestal : t.endPedestal = s.endPedestal := by
  unfold State.endPedestal
  rw [h.startup]

theorem Ticked.laneByte : t.laneByte = s.laneByte := congrArg (BitVec.ofNat 8) h.position

theorem Ticked.key : t.startup.key = s.startup.key := by rw [h.startup]

theorem Ticked.scales : t.scales = s.scales := by
  unfold State.scales
  rw [h.settings, h.sampler, h.neighbours, h.adj, h.carried, h.alarm]

theorem Ticked.opening (trigger : Trigger) (d : Direction) (a b : Stamp) : t.opening trigger d a b = s.opening trigger d a b := by
  unfold State.opening
  rw [h.adj, h.position, h.sightings]

theorem Ticked.hasRoom {n : Nat} (room : s.HasRoom n) : t.HasRoom n := by
  obtain ⟨hawake, hfits, hquiet⟩ := room
  rw [← h.line] at hawake hfits hquiet
  exact ⟨hawake, hfits, hquiet⟩

/-- Another row line in both. -/
theorem Ticked.withLine (l : RowLine) : Ticked (s.withLine l) (t.withLine l) :=
  ⟨⟨h.frame.pending, fun b hb => by
    have := h.frame.blocks b hb
    cases b
    case line => rfl
    all_goals exact this⟩, h.stamp, h.join, h.startup⟩

/-- Another alarm unit in both. -/
theorem Ticked.withAlarm (a : AlarmUnit) : Ticked (s.withAlarm a) (t.withAlarm a) :=
  ⟨⟨h.frame.pending, fun b hb => by
    have := h.frame.blocks b hb
    cases b
    case alarm => rfl
    all_goals exact this⟩, h.stamp, h.join, h.startup⟩

/-- The return-to-CLEAR report clears the same latch (R166). -/
theorem Ticked.latchCleared : Ticked s.latchCleared t.latchCleared := by
  unfold State.latchCleared
  rw [h.settings, h.alarm, h.line, h.laneByte]
  split_ifs
  · exact (h.withAlarm _).withLine _
  · exact h

end Same

/-! ### Openings -/

section Opened

variable {s s' t t' : State} {ties : Ties}

theorem SettledTo.ticked {a : Adjudication} (h : SettledTo s' ties a t) (hs : Ticked s s') (ht : Ticked t t') :
    SettledTo s ties a t' where
  carried := by simpa only [ht.carried, hs.settings, hs.carried] using h.carried
  journal := by simpa only [ht.alarm, hs.alarm, hs.stamp] using h.journal
  cursor := by simpa only [ht.alarm, hs.alarm] using h.cursor
  left := by simpa only [ht.alarm, ht.line, hs.alarm, hs.line] using h.left
  raised := by simpa only [ht.alarm, ht.line, hs.alarm, hs.line, hs.laneByte] using h.raised

theorem WeighedAtOnce.ticked {w : Adjudication} (h : WeighedAtOnce s' ties w t) (hs : Ticked s s') (ht : Ticked t t') :
    WeighedAtOnce s ties w t' where
  ended := by
    simpa only [ht.adj, ht.line, ht.sightings, ht.carried, ht.alarm, hs.adj, hs.line, hs.sightings, hs.carried, hs.alarm]
      using h.ended
  given := by simpa only [ht.adj, ht.sightings, hs.adj, hs.sightings, hs.stamp] using h.given
  joined := by
    simpa only [ht.adj, ht.line, ht.carried, ht.alarm, hs.adj, hs.line, hs.carried, hs.alarm] using h.joined
  displacing hattributed hfull pre post old hlist hpre hold hids := by
    rw [← hs.adj] at hfull hlist
    obtain ⟨hleft, hsettled⟩ := h.displacing hattributed hfull pre post old hlist hpre hold hids
    rw [hs.line] at hsettled
    exact ⟨by rw [ht.adj, hleft], hsettled.ticked (hs.withLine _) ht⟩
  alone hattributed hfull hnone := by
    rw [← hs.adj] at hfull hnone
    obtain ⟨hleft, hsettled⟩ := h.alone hattributed hfull hnone
    rw [hs.line] at hsettled
    exact ⟨by rw [ht.adj, hleft, hs.adj], hsettled.ticked (hs.withLine _) ht⟩

/-- What an opening does is told by what a tick leaves, before it and after it. -/
theorem OpenedTo.ticked {x : Adjudication} (h : OpenedTo s' ties x t) (hs : Ticked s s') (ht : Ticked t t') :
    OpenedTo s ties x t' where
  line := by simpa only [ht.line, hs.line] using h.line
  called := by
    simpa only [ht.adj, ht.line, ht.sightings, ht.carried, ht.alarm, hs.adj, hs.line, hs.sightings, hs.carried, hs.alarm,
      hs.neighbours] using h.called
  weighed hw := by
    rw [← hs.neighbours, ← hs.adj] at hw
    rw [← hs.scales]
    exact (h.weighed hw).ticked hs ht

end Opened

/-! ### The staff key at rest -/

/-- The staff key has been read, and its sample `raw` is the position it stands in (R182). -/
structure KeyRests (raw : Option KeyPosition) (s : State) : Prop where
  onLine : s.startup.state = .listening ∨ s.startup.state = .joined
  started : s.startup.keyStarted = true
  rests : raw = some s.startup.key

/-- The sample that both inputs give in a position of the key (R182). -/
theorem rawKey_position (k : KeyPosition) : rawKey (k == .ack) (k == .service) = some k := by cases k <;> rfl

/-- What is told of the key rests on the start-up block, but for the sample that waits. -/
theorem KeyRests.of_startup {raw : Option KeyPosition} {s t : State} (h : KeyRests raw s)
    (ht : t.startup = { s.startup with keyPending := t.startup.keyPending }) : KeyRests raw t := by
  obtain ⟨honLine, hstarted, hrests⟩ := h
  constructor <;> rw [ht] <;> assumption

theorem KeyRests.ticked {raw : Option KeyPosition} {s t : State} (h : KeyRests raw s) (ht : Ticked s t) : KeyRests raw t :=
  h.of_startup ht.startup

theorem KeyRests.frame {raw : Option KeyPosition} {s t : State} {bs : List Block} (h : KeyRests raw s) (ht : SameBut s bs t)
    (hbs : .startup ∉ bs) : KeyRests raw t := h.of_startup (by rw [ht.blocks .startup hbs])

section KeyAt

variable {raw : Option KeyPosition} {s : State} (h : KeyRests raw s) (place now : KeyPlace)
include h

/-- A key that rests loses the sample that waits, at its place in the order. -/
theorem KeyRests.keyAt : s.keyAt place now raw =
    if place = now then s.withStartup { s.startup with keyPending := none } else s := by
  obtain ⟨honLine, hstarted, rfl⟩ := h
  unfold State.keyAt State.sampleKey
  rw [if_pos honLine, if_pos hstarted, State.nextKey]
  simp

theorem KeyRests.keyAt_ticked : Ticked s (s.keyAt place now raw) := by
  rw [h.keyAt]
  split_ifs
  · exact s.withPending_ticked none
  · exact .refl s

theorem KeyRests.keyAt_startup : (s.keyAt place now raw).startup =
    if place = now then { s.startup with keyPending := none } else s.startup := by
  rw [h.keyAt]
  split_ifs <;> rfl

end KeyAt

end Sys2Proof.Machine
end

section
/-! CERTIFICATE. FILTER_TICK at which a passage completes: its delivery, and the clear that waits for the lane, in either order (R79, R80,
R122, R125 to R129, R166). -/

namespace Sys2Proof.Machine

/-! ### The return-to-CLEAR report -/

/-- A latch that does not wait for the lane is left as it is (R166). -/
theorem State.latchCleared_idle {s : State} (h : s.alarm.latch.clearPending = false) : s.latchCleared = s := if_neg (by simp [h])

/-- The report clears a latch that waits, when its notice finds room. -/
theorem State.returnToClear_cleared {s : State} (h : s.alarm.latch.clearPending = false ∨ s.HasRoom 1) :
    s.returnToClear = s.latchCleared := by
  obtain hidle | hroom := h
  · rw [State.latchCleared_idle hidle]
    exact if_neg (by simp [hidle])
  · exact State.returnToClear_room hroom

theorem State.latchCleared_frame (s : State) : SameBut s [.alarm, .line] s.latchCleared :=
  SameBut.ite ((s.withAlarm_frame _).then (State.withLine_frame _ _) (by decide) (by decide)) (.refl s _)

/-- The report moves the latch and the queue, and nothing else. -/
theorem State.latchCleared_back (s : State) : (s.latchCleared.withLine s.line).withAlarm s.alarm = s := by
  unfold State.latchCleared
  split_ifs <;> rfl

theorem State.HasRoom.latchCleared {s : State} {n : Nat} (room : s.HasRoom (n + 1)) : s.latchCleared.HasRoom n := by
  unfold State.latchCleared
  split_ifs
  · refine ⟨room.awake, ?_, room.quiet⟩
    have := room.fits
    rw [State.withLine_line, List.length_append, List.length_singleton]
    omega
  · exact room.mono (Nat.le_succ n)

/-! ### The delivery -/

/-- A completed passage leaves no trace: the part is not JOINED, the staff key stands in SERVICE, or a clash is on (R80, R122). -/
def State.Discards (s : State) : Prop :=
  s.cadence.join ≠ .joined ∨ s.startup.key = .service ∨ s.neighbours.clash = true

theorem Ticked.discards {s t : State} (h : Ticked s t) : t.Discards ↔ s.Discards := by
  unfold State.Discards
  rw [h.join, h.key, h.neighbours]

theorem State.delivers_iff (s : State) : s.delivers = true ↔ s.cadence.join = .joined ∧ s.startup.key ≠ .service := by
  simp [State.delivers, State.isJoined]

theorem State.takePassage_discarded {s : State} (h : s.Discards) (c : Option Completed) : s.takePassage c = s := by
  unfold State.takePassage
  split
  case h_2 => rfl
  case h_1 p =>
    split_ifs with hdelivers
    · obtain ⟨hjoined, hkey⟩ := s.delivers_iff.1 hdelivers
      obtain h | h | hclash := h
      · exact absurd hjoined h
      · exact absurd h hkey
      · exact State.openAdjudication_clash hclash _ _ _ _ _
    · rfl

theorem State.takePassage_delivered {s : State} (h : ¬s.Discards) (p : Completed) :
    s.takePassage (some p) = s.openAdjudication .none .passage p.direction (p.startStamp.before 25) p.endStamp := by
  unfold State.Discards at h
  push Not at h
  obtain ⟨hjoined, hkey, -⟩ := h
  exact if_pos (s.delivers_iff.2 ⟨hjoined, hkey⟩)

/-- A delivery that finds room (R80, R126). -/
theorem State.takePassage_opened {s : State} (h : ¬s.Discards) (room : s.HasRoom 7)
    (hlisted : ∀ b ∈ s.adj.list, b.candidates.length ≤ 24) (p : Completed) :
    OpenedTo s .none (s.opening .passage p.direction (p.startStamp.before 25) p.endStamp) (s.takePassage (some p)) ∧
      OffersWithin 7 s (s.takePassage (some p)) := by
  rw [State.takePassage_delivered h]
  unfold State.Discards at h
  push Not at h
  obtain ⟨-, -, hclash⟩ := h
  exact ⟨State.openAdjudication_opened room (by simpa using hclash) hlisted _ _ _ _ _,
    State.openAdjudication_within room hlisted _ _ _ _⟩

/-! ### The stages of the tick -/

/-- How a filter tick that completes the passage `p` brings `s` to `r`: the return-to-CLEAR report and the delivery, the report first or
last, with no more than time, the lane and the key's waiting sample moved before, between and after them (R80, R166). -/
inductive Completes (p : Completed) (s r : State) : Bool → Prop
  | reportFirst {u v : State} (before : Ticked s u) (between : Ticked u.returnToClear v)
    (after : Ticked (v.takePassage (some p)) r) : Completes p s r true
  | reportLast {u v : State} (before : Ticked s u) (between : Ticked (u.takePassage (some p)) v)
    (after : Ticked v.returnToClear r) : Completes p s r false

/-- Time may pass before it. -/
theorem Completes.of_ticked {p : Completed} {s t r : State} {first : Bool} (h : Completes p t r first) (ht : Ticked s t) :
    Completes p s r first := by
  cases h with
  | reportFirst before between after => exact .reportFirst (ht.trans before) between after
  | reportLast before between after => exact .reportLast (ht.trans before) between after

section Stages

variable {s : State} {i o : Bool} {order : TickOrder} {raw : Option KeyPosition} {l : LaneMonitor} {p : Completed}
  (hkey : KeyRests raw s) (htick : s.lane.tick s.endPedestal s.stamp i o = (l, ⟨some p, true⟩))
include hkey htick

/-- The lane monitor's part of a tick with the key at rest: the lane moves, and what that leads to follows. -/
theorem State.sampleInputs_completed : ∃ u, Ticked s u ∧ u.lane = l ∧
    s.sampleInputs i o order raw = (u.takeLaneEvent ⟨some p, true⟩ order raw).keyAt order.key .last raw := by
  have hfirst := hkey.keyAt_ticked order.key .first
  have hlane : (s.keyAt order.key .first raw).lane = s.lane := (s.keyAt_frame _ _ _).blocks .lane (by decide)
  refine ⟨(s.keyAt order.key .first raw).withLane l, hfirst.trans (State.withLane_ticked _ _), rfl, ?_⟩
  unfold State.sampleInputs State.sampleBeams
  rw [hlane, hfirst.endPedestal, hfirst.stamp, htick]

theorem State.sampleInputs_lane_completed : (s.sampleInputs i o order raw).lane = l := by
  obtain ⟨u, -, hlane, heq⟩ := State.sampleInputs_completed (order := order) hkey htick
  rw [heq, (State.keyAt_frame _ _ _ _).blocks .lane (by decide), State.takeLaneEvent_lane, hlane]

/-- The key is read before the two works, between them or after them. -/
theorem State.sampleInputs_completes : Completes p s (s.sampleInputs i o order raw) order.reportFirst := by
  obtain ⟨u, hu, -, heq⟩ := State.sampleInputs_completed (order := order) hkey htick
  have hkey := hkey.ticked hu
  rw [heq, State.takeLaneEvent]
  cases order.reportFirst with
  | true =>
    have hreport := hkey.frame u.returnToClear_frame (by decide)
    have hbetween := hreport.keyAt_ticked order.key .between
    have hdelivery := (hreport.ticked hbetween).frame (State.takePassage_frame _ (some p)) (by decide)
    exact .reportFirst hu hbetween (hdelivery.keyAt_ticked order.key .last)
  | false =>
    have hdelivery := hkey.frame (u.takePassage_frame (some p)) (by decide)
    have hbetween := hdelivery.keyAt_ticked order.key .between
    have hreport := (hdelivery.ticked hbetween).frame (State.returnToClear_frame _) (by decide)
    exact .reportLast hu hbetween (hreport.keyAt_ticked order.key .last)

end Stages

/-- The sample of the key that waits is lost at its place in the order, whichever it is (R182). -/
theorem State.takeLaneEvent_startup {s : State} {raw : Option KeyPosition} (hkey : KeyRests raw s) (ev : LaneEvent)
    (order : TickOrder) : (s.takeLaneEvent ev order raw).startup =
      if order.key = .between then { s.startup with keyPending := none } else s.startup := by
  unfold State.takeLaneEvent
  by_cases hfirst : order.reportFirst = true
  · have hclear := s.takeClear_frame ev.enteredClear
    rw [if_pos hfirst, (State.takePassage_frame _ _).blocks .startup (by decide),
      (hkey.frame hclear (by decide)).keyAt_startup, hclear.blocks .startup (by decide)]
  · have hpassage := s.takePassage_frame ev.completed
    rw [if_neg hfirst, (State.takeClear_frame _ _).blocks .startup (by decide),
      (hkey.frame hpassage (by decide)).keyAt_startup, hpassage.blocks .startup (by decide)]

/-- Of the start-up block a tick with the key at rest changes the sample that waits. -/
theorem State.sampleInputs_startup {s : State} {raw : Option KeyPosition} (hkey : KeyRests raw s) (i o : Bool)
    (order : TickOrder) : (s.sampleInputs i o order raw).startup = { s.startup with keyPending := none } := by
  have hfirst := hkey.keyAt_ticked order.key .first
  have hlane := hfirst.trans (State.withLane_ticked _
    ((s.keyAt order.key .first raw).lane.tick (s.keyAt order.key .first raw).endPedestal (s.keyAt order.key .first raw).stamp i o).1)
  have hevent := fun ev => State.takeLaneEvent_startup (hkey.ticked hlane) ev order
  have hlast : ∀ ev, KeyRests raw (State.takeLaneEvent _ ev order raw) := fun ev =>
    (hkey.ticked hlane).of_startup (by rw [hevent]; split_ifs <;> rfl)
  unfold State.sampleInputs State.sampleBeams
  dsimp only
  rw [(hlast _).keyAt_startup, hevent, State.withLane_startup, hkey.keyAt_startup]
  cases order.key <;> rfl

/-! ### What comes of the tick -/

theorem State.latchCleared_opening (s : State) (trigger : Trigger) (d : Direction) (a b : Stamp) :
    s.latchCleared.opening trigger d a b = s.opening trigger d a b := by
  unfold State.opening State.position
  rw [s.latchCleared_frame.blocks .adj (by decide), s.latchCleared_frame.blocks .startup (by decide),
    s.latchCleared_frame.blocks .sightings (by decide)]

theorem State.latchCleared_discards {s : State} : s.latchCleared.Discards ↔ s.Discards := by
  unfold State.Discards
  rw [s.latchCleared_frame.blocks .cadence (by decide), s.latchCleared_frame.blocks .startup (by decide),
    s.latchCleared_frame.blocks .neighbours (by decide)]

/-- The report finds the latch and the room as they were before the tick. -/
theorem Ticked.returnToClear {s t : State} (h : Ticked s t) (hreport : s.alarm.latch.clearPending = false ∨ s.HasRoom 1) :
    Ticked s.latchCleared t.returnToClear := by
  rw [State.returnToClear_cleared (hreport.imp (fun hidle => by rwa [h.alarm]) h.hasRoom)]
  exact h.latchCleared

section Outcome

variable {p : Completed} {s r : State} {first : Bool}

theorem Completes.frame (h : Completes p s r first) :
    SameBut s [.cadence, .lane, .startup, .adj, .line, .sightings, .carried, .alarm] r := by
  have hticked : ∀ {x y}, Ticked x y → SameBut x [.cadence, .lane, .startup, .adj, .line, .sightings, .carried, .alarm] y :=
    fun hxy => hxy.frame.mono (by decide)
  cases h with
  | reportFirst before between after =>
    exact (hticked before).trans (((State.returnToClear_frame _).mono (by decide)).trans ((hticked between).trans
      (((State.takePassage_frame _ _).mono (by decide)).trans (hticked after))))
  | reportLast before between after =>
    exact (hticked before).trans (((State.takePassage_frame _ _).mono (by decide)).trans ((hticked between).trans
      (((State.returnToClear_frame _).mono (by decide)).trans (hticked after))))

/-- A discarded passage leaves the return-to-CLEAR report alone to act (R80, R166). -/
theorem Completes.discarded (h : Completes p s r first) (hdiscards : s.Discards)
    (hreport : s.alarm.latch.clearPending = false ∨ s.HasRoom 1) : Ticked s.latchCleared r := by
  cases h with
  | reportFirst before between after =>
    have hv := (before.returnToClear hreport).trans between
    rw [State.takePassage_discarded (hv.discards.2 (State.latchCleared_discards.2 hdiscards))] at after
    exact hv.trans after
  | reportLast before between after =>
    rw [State.takePassage_discarded (before.discards.2 hdiscards)] at between
    exact ((before.trans between).returnToClear hreport).trans after

/-- A delivery that finds room, at a moment before which no more than a tick's own has moved. -/
theorem Ticked.takePassage_opened {t : State} (ht : Ticked s t) (hdelivers : ¬s.Discards) (room : s.HasRoom 7)
    (hlisted : ∀ b ∈ s.adj.list, b.candidates.length ≤ 24) {x : Adjudication}
    (hx : x = s.opening .passage p.direction (p.startStamp.before 25) p.endStamp) :
    OpenedTo t .none x (t.takePassage (some p)) ∧ OffersWithin 7 s (t.takePassage (some p)) := by
  obtain ⟨hopened, hqueue, hlatch⟩ := State.takePassage_opened (mt ht.discards.1 hdelivers) (ht.hasRoom room)
    (by rwa [ht.adj]) p
  rw [ht.opening, ← hx] at hopened
  rw [ht.line] at hqueue
  rw [ht.alarm] at hlatch
  exact ⟨hopened, hqueue, hlatch⟩

/-- The report, and then an opening (R166, R126). -/
theorem Completes.opened_reportFirst (h : Completes p s r true) (hdelivers : ¬s.Discards)
    (hreport : s.alarm.latch.clearPending = false ∨ s.HasRoom 1) (room : s.latchCleared.HasRoom 7)
    (hlisted : ∀ b ∈ s.adj.list, b.candidates.length ≤ 24) {x : Adjudication}
    (hx : x = s.opening .passage p.direction (p.startStamp.before 25) p.endStamp) : OpenedTo s.latchCleared .none x r := by
  cases h with
  | reportFirst before between after =>
    have hv := (before.returnToClear hreport).trans between
    obtain ⟨hopened, -⟩ := hv.takePassage_opened (mt State.latchCleared_discards.1 hdelivers) room
      (by rwa [s.latchCleared_frame.blocks .adj (by decide)]) (hx.trans (s.latchCleared_opening _ _ _ _).symm)
    exact hopened.ticked hv after

/-- An opening, and then the report (R126, R166). -/
theorem Completes.opened_reportLast (h : Completes p s r false) (hdelivers : ¬s.Discards) (room : s.HasRoom 7)
    (hlisted : ∀ b ∈ s.adj.list, b.candidates.length ≤ 24) {x : Adjudication}
    (hx : x = s.opening .passage p.direction (p.startStamp.before 25) p.endStamp) :
    ∃ v, OpenedTo s .none x v ∧ OffersWithin 7 s v ∧ Ticked v.returnToClear r := by
  cases h with
  | @reportLast u v before between after =>
    obtain ⟨hopened, hqueue, hlatch⟩ := before.takePassage_opened hdelivers room hlisted hx
    exact ⟨v, hopened.ticked before between, ⟨by rwa [between.line], by rwa [between.alarm]⟩, after⟩

/-- With no latch that waits for the lane, either order is the opening alone. -/
theorem Completes.opened_idle (h : Completes p s r first) (hdelivers : ¬s.Discards)
    (hidle : s.alarm.latch.clearPending = false) (room : s.HasRoom 7) (hlisted : ∀ b ∈ s.adj.list, b.candidates.length ≤ 24)
    {x : Adjudication} (hx : x = s.opening .passage p.direction (p.startStamp.before 25) p.endStamp) :
    OpenedTo s .none x r := by
  cases first with
  | true =>
    have hopened := h.opened_reportFirst hdelivers (.inl hidle) (by rwa [State.latchCleared_idle hidle]) hlisted hx
    rwa [State.latchCleared_idle hidle] at hopened
  | false =>
    obtain ⟨v, hopened, hwithin, hr⟩ := h.opened_reportLast hdelivers room hlisted hx
    have hidle := hwithin.latch hidle
    rw [State.returnToClear_cleared (.inl hidle), State.latchCleared_idle hidle] at hr
    exact hopened.ticked (.refl s) hr

/-- With room for the report too, the opened state is that before the report, brought to the end of the tick. -/
theorem Completes.opened_then_cleared (h : Completes p s r false) (hdelivers : ¬s.Discards) (room : s.HasRoom 8)
    (hlisted : ∀ b ∈ s.adj.list, b.candidates.length ≤ 24) {x : Adjudication}
    (hx : x = s.opening .passage p.direction (p.startStamp.before 25) p.endStamp) :
    r.line.dropped = [] ∧ ∃ u, SameBut r [.line, .alarm] u ∧ OpenedTo s .none x u ∧
      r.alarm = u.latchCleared.alarm ∧ r.line = u.latchCleared.line := by
  obtain ⟨v, hopened, hwithin, hr⟩ := h.opened_reportLast hdelivers (room.mono (by decide)) hlisted hx
  have hroom : v.HasRoom 1 := by
    have hqueue := hwithin.queue
    have hfits := room.fits
    exact ⟨by rw [hopened.line]; exact room.awake, by omega, by rw [hopened.line]; exact room.quiet⟩
  rw [State.returnToClear_room hroom] at hr
  have hv : Ticked v ((r.withLine v.line).withAlarm v.alarm) := by
    have hback := (hr.withLine v.line).withAlarm v.alarm
    rwa [State.latchCleared_back] at hback
  have hcleared := hv.latchCleared
  refine ⟨by rw [hr.line]; exact hroom.latchCleared.quiet, (r.withLine v.line).withAlarm v.alarm,
    (r.withLine_frame _).then (State.withAlarm_frame _ _) (by decide) (by decide), hopened.ticked (.refl s) hv, ?_, ?_⟩
  · rw [hr.alarm, hcleared.alarm]
  · rw [hr.line, hcleared.line]

end Outcome

/-! ### The lane of a completed passage -/

/-- A tick at which a broken beam is filtered CLEAR (R71). -/
theorem Beam.sample_clearing {b : Beam} (h : b.broken = true → b.differ = true) :
    (b.sample false).2 = if b.broken = true then .cleared else .same := by
  unfold Beam.sample
  cases hb : b.broken with
  | true => simp [h hb]
  | false => simp

/-- Table 5-2 completes a passage when the beams that its state holds broken are filtered CLEAR together (R74 to R76, R79). -/
theorem Passage.move_of_completing {p : Passage} {d : Direction} {bi bo : Bool}
    (h : (p, false, false, Passage.clear, some d) ∈ passageMoves) (hbeams : ∀ b, p.beams = some b → (bi, bo) = b) :
    p.move (if bi = true then .cleared else .same) (if bo = true then .cleared else .same) = .complete d := by
  have hstates : (p = .outSpanned ∧ d = .undirected) ∨ (p = .outClosing ∧ d = .outbound) ∨
      (p = .inSpanned ∧ d = .undirected) ∨ (p = .inClosing ∧ d = .inbound) ∨ (p = .bothSpanned ∧ d = .undirected) := by
    simpa [passageMoves] using h
  obtain ⟨rfl, rfl⟩ | ⟨rfl, rfl⟩ | ⟨rfl, rfl⟩ | ⟨rfl, rfl⟩ | ⟨rfl, rfl⟩ := hstates <;>
    (obtain ⟨rfl, rfl⟩ := Prod.mk.inj (hbeams _ rfl); rfl)

/-- A completion brings the lane to CLEAR and gives the passage (R79). -/
theorem LaneMonitor.react_complete {l : LaneMonitor} {ci co : Change} {d : Direction} (h : l.passage.move ci co = .complete d)
    (now : Stamp) : l.react now ci co = (l.toClear, ⟨some (completedAt d l.startStamp now), true⟩) := by
  unfold LaneMonitor.react
  split
  case h_1 hp => simp [hp, Passage.move] at h
  case h_2 hp => simp [hp, Passage.move] at h
  case h_3 => rw [h]

/-- A tick at which the beams still broken are filtered CLEAR and Table 5-2 completes a passage (R71, R79). -/
theorem LaneMonitor.tick_complete {l : LaneMonitor} {d : Direction} (hsound : l.Sound) (hstarted : l.started = true)
    (hmoves : (l.passage, false, false, Passage.clear, some d) ∈ passageMoves)
    (hinner : l.inner.broken = true → l.inner.differ = true) (houter : l.outer.broken = true → l.outer.differ = true)
    (now : Stamp) : ∃ m : LaneMonitor, m.passage = .clear ∧ m.startStamp = none ∧
      l.tick false now false false = (m, ⟨some (completedAt d l.startStamp now), true⟩) := by
  refine ⟨LaneMonitor.toClear { l with inner := (l.inner.sample false).1, outer := (l.outer.sample false).1 }, rfl, rfl, ?_⟩
  rw [LaneMonitor.tick_started hstarted, Beam.sample_clearing hinner, Beam.sample_clearing houter]
  exact LaneMonitor.react_complete (l := { l with inner := (l.inner.sample false).1, outer := (l.outer.sample false).1 })
    (Passage.move_of_completing hmoves hsound.beams) now

/-! ### The statement -/

theorem exec_filterTick_works {s : State} (hruns : s.clockRuns = true) (hstraps : s.startup.straps.isSome = true)
    (i o a v : Bool) (order : TickOrder) : exec (.filterTick i o a v order) s =
      .next ((s.toFilterTick.sampleInputs i o order (rawKey a v)).finishOffers .none) := by
  have hworks : s.toFilterTick.laneWorks = true := by
    have hstartup : s.toFilterTick.startup = s.startup := s.toFilterTick_frame.blocks .startup (by decide)
    simp [State.laneWorks, hstartup, hstraps]
  change Host.Outcome.next (if s.clockRuns then (if s.toFilterTick.laneWorks then _ else _) else _) = _
  rw [if_pos hruns, if_pos hworks]

theorem State.not_discards {s : State} (hjoined : s.cadence.join = .joined) (hkey : s.startup.key ≠ .service)
    (hclash : s.neighbours.clash = false) : ¬s.Discards := by
  simp [State.Discards, hjoined, hkey, hclash]

/-- Settles O35: the tick is the report and the delivery in either order, each with the room that it needs. -/
theorem passageCallsPartner : Obligations.PassageCallsPartner := by
  unfold Obligations.PassageCallsPartner
  intro s order start first d x honLine hstraps hend hstarted hsound hlane hmoves hinner houter hstart hfirst hx hquiet
  have hruns : s.clockRuns = true := by obtain h | h := honLine <;> simp [State.clockRuns, h]
  have htime := s.toFilterTick_ticked
  have hkey : KeyRests (rawKey (s.startup.key == .ack) (s.startup.key == .service)) s.toFilterTick :=
    KeyRests.ticked ⟨honLine, hstarted, rawKey_position _⟩ htime
  obtain ⟨m, hclear, hunstamped, hcomplete⟩ := LaneMonitor.tick_complete hsound hlane hmoves hinner houter s.stamp
  have htick : s.toFilterTick.lane.tick s.toFilterTick.endPedestal s.toFilterTick.stamp false false =
      (m, ⟨some (completedAt d s.lane.startStamp s.stamp), true⟩) := by
    rw [s.toFilterTick_frame.blocks .lane (by decide), htime.endPedestal, hend, htime.stamp, hcomplete]
  have hx : x = s.opening .passage (completedAt d s.lane.startStamp s.stamp).direction
      ((completedAt d s.lane.startStamp s.stamp).startStamp.before 25) (completedAt d s.lane.startStamp s.stamp).endStamp := by
    rw [hx, hfirst, hstart]
    rfl
  have hm := State.sampleInputs_lane_completed (order := order) hkey htick
  have hstartup := State.sampleInputs_startup hkey false false order
  rw [s.toFilterTick_frame.blocks .startup (by decide)] at hstartup
  have hdone := (State.sampleInputs_completes (order := order) hkey htick).of_ticked htime
  refine ⟨_, exec_filterTick_works hruns hstraps _ _ _ _ _, ?_⟩
  generalize s.toFilterTick.sampleInputs _ _ _ _ = r at hm hstartup hdone ⊢
  have hfinish := r.finishOffers_frame .none
  refine ⟨by rw [hfinish.blocks .lane (by decide), hm, hclear], by rw [hfinish.blocks .lane (by decide), hm, hunstamped],
    by rw [hfinish.blocks .startup (by decide), hstartup], fun hidle => ⟨fun hdiscards => ?_,
      fun hjoined hposition hclash room hlisted => ?_⟩, fun room => ⟨fun hdiscards => ?_,
        fun hjoined hposition hclash hlisted => ?_⟩⟩
  · have hr := hdone.discarded hdiscards (.inl hidle)
    rw [State.latchCleared_idle hidle] at hr
    rw [State.finishOffers_none _ (by rw [hr.line]; exact hquiet)]
    exact hr.frame
  · have hopened := hdone.opened_idle (State.not_discards hjoined hposition hclash) hidle room hlisted hx
    rw [State.finishOffers_none _ (by rw [hopened.line]; exact hquiet)]
    exact ⟨hdone.frame, hopened⟩
  · have hr := hdone.discarded hdiscards (.inr (room.mono (by decide)))
    rw [State.finishOffers_none _ (by rw [hr.line]; exact room.latchCleared.quiet)]
    exact ⟨s.latchCleared_frame.then hr.frame (by decide) (by decide), hr.alarm, hr.line⟩
  · have hdelivers := State.not_discards hjoined hposition hclash
    cases horder : order.reportFirst with
    | true =>
      rw [horder] at hdone
      have hopened := hdone.opened_reportFirst hdelivers (.inr (room.mono (by decide))) room.latchCleared hlisted hx
      rw [State.finishOffers_none _ (by rw [hopened.line]; exact room.latchCleared.quiet)]
      exact ⟨hdone.frame, fun _ => hopened, nofun⟩
    | false =>
      rw [horder] at hdone
      obtain ⟨hdropped, hopened⟩ := hdone.opened_then_cleared hdelivers room hlisted hx
      rw [State.finishOffers_none _ hdropped]
      exact ⟨hdone.frame, nofun, fun _ => hopened⟩

end Sys2Proof.Machine
end

section
/-! CERTIFICATE. The bytes and the characters of a notice, read back (R92, R93, R104, R107, R108, Table 6-6). -/

namespace Sys2Proof.Machine

/-! ### Words, bytes and bits -/

@[simp] theorem of16_byteOf (x : BitVec 16) : of16 (byteOf x 1) (byteOf x 0) = x :=
  (BitVec.extractLsb'_append_extractLsb'_eq_extractLsb' rfl).trans BitVec.extractLsb'_eq_self

@[simp] theorem of24_byteOf (x : BitVec 24) : of24 (byteOf x 2) (byteOf x 1) (byteOf x 0) = x := by
  have hlow : (byteOf x 1 ++ byteOf x 0 : BitVec 16) = x.extractLsb' 0 16 :=
    BitVec.extractLsb'_append_extractLsb'_eq_extractLsb' rfl
  rw [of24, hlow]
  exact (BitVec.extractLsb'_append_extractLsb'_eq_extractLsb' rfl).trans BitVec.extractLsb'_eq_self

@[simp] theorem of32_byteOf (x : BitVec 32) : of32 (byteOf x 3) (byteOf x 2) (byteOf x 1) (byteOf x 0) = x := by
  have hhigh : (byteOf x 3 ++ byteOf x 2 : BitVec 16) = x.extractLsb' 16 16 :=
    BitVec.extractLsb'_append_extractLsb'_eq_extractLsb' rfl
  have hlow : (byteOf x 1 ++ byteOf x 0 : BitVec 16) = x.extractLsb' 0 16 :=
    BitVec.extractLsb'_append_extractLsb'_eq_extractLsb' rfl
  rw [of32, hhigh, hlow]
  exact (BitVec.extractLsb'_append_extractLsb'_eq_extractLsb' rfl).trans BitVec.extractLsb'_eq_self

/-- The bits of a byte made of bits. -/
theorem getLsbD_byteOfBits : ∀ b0 b1 b2 b3 b4 b5 b6 b7 : Bool, ∀ i : Fin 8,
    (byteOfBits b0 b1 b2 b3 b4 b5 b6 b7).getLsbD i = [b0, b1, b2, b3, b4, b5, b6, b7][i] := by decide

/-- A byte is made of its bits. -/
theorem byteOfBits_getLsbD : ∀ b : Byte, byteOfBits (b.getLsbD 0) (b.getLsbD 1) (b.getLsbD 2) (b.getLsbD 3) (b.getLsbD 4)
    (b.getLsbD 5) (b.getLsbD 6) (b.getLsbD 7) = b := by decide

/-! ### The fields of a body -/

@[simp] theorem Kind.ofCode_code (k : Kind) : Kind.ofCode k.code = some k := by cases k <;> rfl
@[simp] theorem AlarmClass.ofCode_code (c : AlarmClass) : AlarmClass.ofCode c.code = some c := by cases c <;> rfl
@[simp] theorem LatchChange.ofCode_code (c : LatchChange) : LatchChange.ofCode c.code = some c := by cases c <;> rfl
@[simp] theorem ofFlagByte_flagByte (b : Bool) : ofFlagByte (flagByte b) = some b := by cases b <;> rfl

@[simp] theorem ofLatchByte_latchByte (c : AlarmClass) (a : Bool) : ofLatchByte (latchByte c a) = some (c, a) := by
  cases c <;> cases a <;> rfl

@[simp] theorem partByte_part : ∀ (part : BitVec 4) (final : Bool), (partByte part final).extractLsb' 0 4 = part := by decide
@[simp] theorem partByte_final : ∀ (part : BitVec 4) (final : Bool), (partByte part final)[7] = final := by decide

@[simp] theorem stampOf_bytes {s : Stamp} (h : s.index < 25) :
    stampOf (byteOf s.superFrame 1) (byteOf s.superFrame 0) (BitVec.ofNat 8 s.index) = some s := by
  have hindex : (BitVec.ofNat 8 s.index).toNat = s.index := by rw [BitVec.toNat_ofNat]; omega
  rw [stampOf, hindex, if_pos h, of16_byteOf]

@[simp] theorem StatusFlags.ofBytes_bytes (f : StatusFlags) : StatusFlags.ofBytes f.firstByte f.secondByte = f := by
  have hfirst := getLsbD_byteOfBits f.westFault f.eastFault f.innerStuck f.outerStuck f.laneBusy f.service f.defaulted f.clash
  have hsecond := getLsbD_byteOfBits f.watchedTag f.fieldRunning false false false false false false
  unfold StatusFlags.ofBytes StatusFlags.firstByte StatusFlags.secondByte
  congr 1
  exacts [hfirst 0, hfirst 1, hfirst 2, hfirst 3, hfirst 4, hfirst 5, hfirst 6, hfirst 7, hsecond 0, hsecond 1]

/-! ### Entries -/

@[simp] theorem EvidenceEntry.bytes_length (e : EvidenceEntry) : e.bytes.length = 13 := rfl
@[simp] theorem VerdictEntry.bytes_length (e : VerdictEntry) : e.bytes.length = 6 := rfl
@[simp] theorem SettledEntry.bytes_length (e : SettledEntry) : e.bytes.length = 5 := rfl

/-- The status byte of an EVIDENCE entry holds its code in the low bits, and watched above it. -/
theorem evidenceStatus_bits : ∀ watched unissued : Bool,
    let f : Byte := 0#3 ++ (BitVec.ofBool watched ++ (if unissued then 6#4 else 9#4) : BitVec 5)
    f.extractLsb' 0 4 = (if unissued then 6#4 else 9#4) ∧ f.getLsbD 4 = watched := by decide

theorem evidenceEntries_bytes (es : List EvidenceEntry) : evidenceEntries (es.flatMap EvidenceEntry.bytes) = some es := by
  induction es with
  | nil => rfl
  | cons e es ih =>
    obtain ⟨serial, unissued, watched, west, east, reads⟩ := e
    obtain ⟨hcode, hwatched⟩ := evidenceStatus_bits watched unissued
    rw [List.flatMap_cons]
    simp only [EvidenceEntry.bytes, be32, be24, be16, List.cons_append, List.nil_append, evidenceEntries, hcode, hwatched, ih]
    cases unissued <;> simp

theorem verdictEntries_bytes (es : List VerdictEntry) : verdictEntries (es.flatMap VerdictEntry.bytes) = some es := by
  induction es with
  | nil => rfl
  | cons e es ih => simp [VerdictEntry.bytes, be32, verdictEntries, ih]

theorem settledEntries_bytes (es : List SettledEntry) : settledEntries (es.flatMap SettledEntry.bytes) = some es := by
  induction es with
  | nil => rfl
  | cons e es ih => simp [SettledEntry.bytes, be32, settledEntries, ih]

/-! ### Bodies -/

/-- After the head of a body, whole entries up to the most a part holds have an allowed length (R103). -/
theorem entries_allowed {α : Type} {bytes : α → List Byte} {k most : Nat} (hk : ∀ e, (bytes e).length = k) {es : List α}
    (h : es.length ≤ most) (head : List Byte) :
    (decide (head.length ≤ (head ++ es.flatMap bytes).length) &&
      ((head ++ es.flatMap bytes).length - head.length) % k == 0 &&
      decide ((head ++ es.flatMap bytes).length ≤ head.length + most * k)) = true := by
  have hlen : (es.flatMap bytes).length = es.length * k := by simp [List.length_flatMap, hk]
  have hmost : es.length * k ≤ most * k := Nat.mul_le_mul_right k h
  simp [hlen, hmost]

/-- The body of a well-formed notice has a length that its kind allows (R103, Table 6-6). -/
theorem Notice.body_lengthAllowed {n : Notice} (h : n.wf = true) : lengthAllowed n.code n.body.length = true := by
  cases n with
  | cadence | status | call | alarm | ack | journalCall => rfl
  | evidence id part final es =>
    exact entries_allowed EvidenceEntry.bytes_length (of_decide_eq_true h) [id, partByte part final]
  | verdict id lane part final es =>
    obtain ⟨-, hes⟩ : laneAccepted lane = true ∧ es.length ≤ 9 := by simpa [Notice.wf] using h
    exact entries_allowed VerdictEntry.bytes_length hes [id, lane, partByte part final]
  | settlement id lane part final es =>
    obtain ⟨-, hes⟩ : laneAccepted lane = true ∧ es.length ≤ 11 := by simpa [Notice.wf] using h
    exact entries_allowed SettledEntry.bytes_length hes [id, lane, partByte part final]
  | journal index e => cases e <;> rfl

/-- An entry of the journal that JOURNAL may carry is read from its bytes (R174). -/
theorem journalOf_some {index : Byte} {e : JournalBody} (h : (Notice.journal index (some e)).wf = true) :
    journalOf (index :: journalBytes (some e)) = some (.journal index (some e)) := by
  obtain ⟨⟨⟨⟨hindex, hlane⟩, hkind⟩, hcls⟩, hstamp⟩ : (((index.toNat ≤ 31 ∧ laneAccepted e.lane = true) ∧
      (e.kind = .alarm ∨ e.kind = .repeated)) ∧ e.cls ≠ .noAlarm) ∧ e.stamp.index < 25 := by simpa [Notice.wf] using h
  simp [journalBytes, journalOf, journalEntryOf, stampBytes, be16, be32, hindex, hlane, hkind, hcls, hstamp]

/-- The body of a well-formed notice is read as that notice (R104, R108, Table 6-6). -/
theorem Notice.readBody_body {n : Notice} (h : n.wf = true) : readBody n.code n.body = some n := by
  cases n with
  | cadence sf d deferred selfLed =>
    have hflags := getLsbD_byteOfBits deferred selfLed false false false false false false
    simp only [Notice.code, Notice.body, be16, List.cons_append, List.nil_append, readBody, of16_byteOf]
    congr 2
    exacts [hflags 0, hflags 1]
  | status sf f c a => simp [Notice.code, Notice.body, readBody, be16]
  | call id lane a b =>
    obtain ⟨⟨hlane, ha⟩, hb⟩ : (laneAccepted lane = true ∧ a.index < 25) ∧ b.index < 25 := by simpa [Notice.wf] using h
    simp [Notice.code, Notice.body, readBody, stampBytes, be16, hlane, ha, hb]
  | evidence id part final es =>
    have hes : es.length ≤ 4 := of_decide_eq_true h
    have hfit : es.length * 13 ≤ 52 := by omega
    simp [Notice.code, Notice.body, readBody, evidenceEntries_bytes, hfit]
  | verdict id lane part final es =>
    obtain ⟨hlane, hes⟩ : laneAccepted lane = true ∧ es.length ≤ 9 := by simpa [Notice.wf] using h
    have hfit : es.length * 6 ≤ 54 := by omega
    simp [Notice.code, Notice.body, readBody, verdictEntries_bytes, hlane, hfit]
  | settlement id lane part final es =>
    obtain ⟨hlane, hes⟩ : laneAccepted lane = true ∧ es.length ≤ 11 := by simpa [Notice.wf] using h
    have hfit : es.length * 5 ≤ 55 := by omega
    simp [Notice.code, Notice.body, readBody, settledEntries_bytes, hlane, hfit]
  | alarm lane c ch a =>
    have hlane : laneAccepted lane = true := h
    simp [Notice.code, Notice.body, readBody, hlane]
  | ack lane => exact if_pos h
  | journalCall target index => exact if_pos h
  | journal index e =>
    cases e with
    | none =>
      have hindex : index.toNat ≤ 31 := by simpa [Notice.wf] using h
      simp [Notice.code, Notice.body, readBody, journalBytes, journalOf, hindex]
    | some e => exact journalOf_some h

/-! ### The frame -/

theorem Notice.code_lt (n : Notice) : n.code < 16 := by cases n <;> simp [Notice.code]

theorem leadKind_leadByte {code : Nat} (h : code < 16) (sender : Nat) : leadKind (leadByte code sender) = code := by
  have hnibble : (leadByte code sender).extractLsb' 4 4 = BitVec.ofNat 4 code := BitVec.extractLsb'_append_eq_left
  rw [leadKind, hnibble, BitVec.toNat_ofNat, Nat.mod_eq_of_lt h]

theorem leadSender_leadByte (code : Nat) {sender : Nat} (h : sender < 16) : leadSender (leadByte code sender) = sender := by
  have hnibble : (leadByte code sender).extractLsb' 0 4 = BitVec.ofNat 4 sender := BitVec.extractLsb'_append_eq_right
  rw [leadSender, hnibble, BitVec.toNat_ofNat, Nat.mod_eq_of_lt h]

/-- No kind allows a body of more than 60 bytes (R103). -/
theorem lengthAllowed_le {code len : Nat} (h : lengthAllowed code len = true) : len ≤ 60 := by
  unfold lengthAllowed at h
  split at h <;> simp at h <;> omega

/-- A notice whose body its kind allows and reads back is assembled from its frame (R102 to R104, R107). -/
theorem assemblyNotice_frame {n : Notice} {sender : Nat} (hlen : lengthAllowed n.code n.body.length = true)
    (hread : readBody n.code n.body = some n) (hs : sender ≤ 9) : assemblyNotice (n.frame sender) = some (sender, n) := by
  have hle := lengthAllowed_le hlen
  have hbyte : (BitVec.ofNat 8 n.body.length).toNat = n.body.length := by rw [BitVec.toNat_ofNat]; omega
  have hkind := leadKind_leadByte n.code_lt sender
  have hsender := leadSender_leadByte n.code (show sender < 16 by omega)
  simp [Notice.frame, assemblyNotice, assemblyComplete, badLength, hbyte, hkind, hsender, hlen, hread, hs, hle]

/-! ### Characters -/

/-- The levels of a character, sampled bit by bit, are that character (R92, R93). -/
theorem edgeHeard_characterLevels (byte : Byte) (lead : Bool) :
    edgeHeard (fun i => (characterLevels (byte, lead)).getD i true) = .character byte lead := by
  have hlevels : edgeHeard (fun i => (characterLevels (byte, lead)).getD i true) =
      .character (byteOfBits (byte.getLsbD 0) (byte.getLsbD 1) (byte.getLsbD 2) (byte.getLsbD 3) (byte.getLsbD 4)
        (byte.getLsbD 5) (byte.getLsbD 6) (byte.getLsbD 7)) lead := rfl
  rw [hlevels, byteOfBits_getLsbD]

/-- Settles O11: a body is read as its notice kind by kind, and a character is the byte of its bits. -/
theorem noticesRoundTrip : Obligations.NoticesRoundTrip := by
  unfold Obligations.NoticesRoundTrip
  exact ⟨fun n sender hwf hs => assemblyNotice_frame (Notice.body_lengthAllowed hwf) (Notice.readBody_body hwf) hs,
    edgeHeard_characterLevels⟩

end Sys2Proof.Machine
end

section
/-! CERTIFICATE. The outgoing queue: the notice a full queue drops, and the queue emptied with no report (R109 to R112). -/

namespace Sys2Proof.Machine

/-! ### The notice to drop -/

/-- `d` stands between `pre` and `post` as the notice to drop (R111): it is of the lowest priority of those not in transmission, and the
newest of that priority. -/
structure DropChoice (pre : List Queued) (d : Queued) (post : List Queued) : Prop where
  free : d.inTransmission = false
  before : ∀ x ∈ pre, x.inTransmission = false → x.notice.priority ≤ d.notice.priority
  after : ∀ x ∈ post, x.inTransmission = false → x.notice.priority < d.notice.priority

/-- With no place to drop every notice is in transmission. -/
theorem dropPlace_none : ∀ {l : List Queued} {i : Nat}, dropPlace l i = none → ∀ x ∈ l, x.inTransmission = true
  | [], _, _, x, hx => absurd hx List.not_mem_nil
  | q :: qs, i, h, x, hx => by
    cases hrest : dropPlace qs (i + 1) with
    | some r => simp only [dropPlace, hrest] at h; split at h <;> cases h
    | none =>
      have hq : q.inTransmission = true := by
        simpa [dropPlace, hrest] using h
      obtain rfl | hx := List.mem_cons.1 hx
      · exact hq
      · exact dropPlace_none hrest x hx

/-- The place to drop is that of the choice of R111. -/
theorem dropPlace_some : ∀ {l : List Queued} {i j p : Nat}, dropPlace l i = some (j, p) →
    ∃ pre d post, l = pre ++ d :: post ∧ j = i + pre.length ∧ p = d.notice.priority ∧ DropChoice pre d post
  | q :: qs, i, j, p, h => by
    cases hrest : dropPlace qs (i + 1) with
    | none =>
      have hbusy := dropPlace_none hrest
      obtain ⟨hq, rfl, rfl⟩ : q.inTransmission = false ∧ i = j ∧ q.notice.priority = p := by
        simpa [dropPlace, hrest] using h
      exact ⟨[], q, qs, rfl, rfl, rfl, hq, by simp, fun x hx hfree => by simp [hbusy x hx] at hfree⟩
    | some r =>
      obtain ⟨k, r⟩ := r
      obtain ⟨pre, d, post, rfl, rfl, rfl, hd⟩ := dropPlace_some hrest
      by_cases hlower : q.inTransmission = false ∧ d.notice.priority < q.notice.priority
      · obtain ⟨hq, hlt⟩ := hlower
        obtain ⟨rfl, rfl⟩ : i = j ∧ q.notice.priority = p := by simpa [dropPlace, hrest, hq, hlt] using h
        refine ⟨[], q, pre ++ d :: post, rfl, rfl, rfl, hq, by simp, fun x hx hfree => ?_⟩
        obtain hx | hx := List.mem_append.1 hx
        · exact (hd.before x hx hfree).trans_lt hlt
        · obtain rfl | hx := List.mem_cons.1 hx
          · exact hlt
          · exact (hd.after x hx hfree).trans hlt
      · obtain ⟨rfl, rfl⟩ : i + 1 + pre.length = j ∧ d.notice.priority = p := by simpa [dropPlace, hrest, hlower] using h
        refine ⟨q :: pre, d, post, rfl, by simp only [List.length_cons]; omega, rfl, hd.free, fun x hx hfree => ?_, hd.after⟩
        obtain rfl | hx := List.mem_cons.1 hx
        · exact Nat.le_of_not_lt fun hlt => hlower ⟨hfree, hlt⟩
        · exact hd.before x hx hfree

/-- Settles O44: the place that the model drops is that of the choice of R111. -/
theorem fullQueueDropsLowest : Obligations.FullQueueDropsLowest := by
  unfold Obligations.FullQueueDropsLowest
  intro queue q hfull hq
  have hroom : ¬queue.length < maxQueue := Nat.not_lt.2 hfull
  cases hplace : dropPlace (queue ++ [q]) 0 with
  | none => simp [dropPlace_none hplace q (by simp)] at hq
  | some place =>
    obtain ⟨j, p⟩ := place
    obtain ⟨pre, d, post, hsplit, hj, -, hd⟩ := dropPlace_some hplace
    refine ⟨pre, post, d, hsplit, hd.free, ?_, hd.before, hd.after⟩
    rw [hsplit, hj, Nat.zero_add] at hplace
    simp [offerTo, hroom, hplace, hsplit, List.eraseIdx_append_of_length_le]

/-! ### The queue emptied -/

/-- Settles O15: the two resets and the entry to hold put the reset values of the row line, and an empty list of adjudications. -/
theorem queueEmptiedWithNoReport : Obligations.QueueEmptiedWithNoReport := by
  unfold Obligations.QueueEmptiedWithNoReport
  rintro s c (rfl | rfl | ⟨⟨wait, rfl⟩, hreset, hhold⟩)
  · exact ⟨_, rfl, rfl, rfl, rfl, rfl⟩
  · exact ⟨_, rfl, rfl, rfl, rfl, rfl⟩
  · obtain ⟨r, hr⟩ : ∃ r, resumeOf s.startup.state = some r := by
      cases hstate : s.startup.state with
      | reset => exact absurd hstate hreset
      | hold => exact absurd hstate hhold
      | straps | config | strapFault | listening | joined => exact ⟨_, rfl⟩
    have hexec : exec (.supplyHold wait) s = .next ((s.waitBits wait).enterHold r) := by
      simp [exec, execSupplyHold, hr]
    exact ⟨_, hexec, rfl, rfl, rfl, rfl⟩

end Sys2Proof.Machine
end

section
/-! CERTIFICATE. NOTICE_START: the notice that begins once the gap is reached (R92, R96 to R98, R110). -/

namespace Sys2Proof.Machine

/-! ### The notice to send -/

/-- `q` stands between `pre` and `post` as the notice to send (R110): no CADENCE, of the highest priority of the others, and the oldest of
that priority. -/
structure SendChoice (pre : List Queued) (q : Queued) (post : List Queued) : Prop where
  chosen : q.notice.priority ≠ 1
  before : ∀ x ∈ pre, x.notice.priority ≠ 1 → q.notice.priority < x.notice.priority
  after : ∀ x ∈ post, x.notice.priority ≠ 1 → q.notice.priority ≤ x.notice.priority

/-- With no place to send from every notice is a CADENCE. -/
theorem sendPlace_none : ∀ {l : List Queued} {i : Nat}, sendPlace l i = none → ∀ x ∈ l, x.notice.priority = 1
  | [], _, _, x, hx => absurd hx List.not_mem_nil
  | q :: qs, i, h, x, hx => by
    have hq : q.notice.priority = 1 := by
      by_contra hq
      cases hrest : sendPlace qs (i + 1) with
      | none => simp [sendPlace, hq, hrest] at h
      | some r => simp only [sendPlace, if_neg hq, hrest] at h; split at h <;> cases h
    have hrest : sendPlace qs (i + 1) = none := by simpa [sendPlace, hq] using h
    obtain rfl | hx := List.mem_cons.1 hx
    · exact hq
    · exact sendPlace_none hrest x hx

/-- The place to send from is that of the choice of R110. -/
theorem sendPlace_some : ∀ {l : List Queued} {i j p : Nat}, sendPlace l i = some (j, p) →
    ∃ pre q post, l = pre ++ q :: post ∧ j = i + pre.length ∧ p = q.notice.priority ∧ SendChoice pre q post
  | x :: xs, i, j, p, h => by
    cases hrest : sendPlace xs (i + 1) with
    | none =>
      have hcadences := sendPlace_none hrest
      obtain ⟨hx, rfl, rfl⟩ : x.notice.priority ≠ 1 ∧ i = j ∧ x.notice.priority = p := by
        by_cases hx : x.notice.priority = 1
        · simp [sendPlace, hx, hrest] at h
        · simpa [sendPlace, hx, hrest] using h
      exact ⟨[], x, xs, rfl, rfl, rfl, hx, by simp, fun y hy hother => absurd (hcadences y hy) hother⟩
    | some r =>
      obtain ⟨k, r⟩ := r
      obtain ⟨pre, q, post, rfl, rfl, rfl, hq⟩ := sendPlace_some hrest
      by_cases hlater : x.notice.priority ≠ 1 → q.notice.priority < x.notice.priority
      · obtain ⟨rfl, rfl⟩ : i + 1 + pre.length = j ∧ q.notice.priority = p := by
          by_cases hx : x.notice.priority = 1
          · simpa [sendPlace, hx, hrest] using h
          · simpa [sendPlace, hx, hrest, hlater hx] using h
        refine ⟨x :: pre, q, post, rfl, by simp only [List.length_cons]; omega, rfl, hq.chosen, fun y hy hother => ?_, hq.after⟩
        obtain rfl | hy := List.mem_cons.1 hy
        · exact hlater hother
        · exact hq.before y hy hother
      · obtain ⟨hx, hle⟩ := Classical.not_imp.1 hlater
        obtain ⟨rfl, rfl⟩ : i = j ∧ x.notice.priority = p := by simpa [sendPlace, hx, hrest, hle] using h
        refine ⟨[], x, pre ++ q :: post, rfl, rfl, rfl, hx, by simp, fun y hy hother => ?_⟩
        have hle := Nat.le_of_not_lt hle
        obtain hy | hy := List.mem_append.1 hy
        · exact hle.trans (hq.before y hy hother).le
        · obtain rfl | hy := List.mem_cons.1 hy
          · exact hle
          · exact hle.trans (hq.after y hy hother)

/-- The notice marked as in transmission is the one at the place; the others are left. -/
theorem startAt_split (pre : List Queued) (q : Queued) (post : List Queued) :
    startAt pre.length (pre ++ q :: post) = pre ++ { q with inTransmission := true } :: post := by
  have others : ∀ (l : List Queued) (k : Nat), (∀ j, k ≤ j → j < k + l.length → j ≠ pre.length) →
      (l.zipIdx k).map (fun x => if x.2 = pre.length then { x.1 with inTransmission := true } else x.1) = l := by
    intro l k h
    conv_rhs => rw [← List.zipIdx_map_fst k l]
    refine List.map_congr_left fun x hx => if_neg ?_
    obtain ⟨hlo, hhi, -⟩ := List.mem_zipIdx hx
    exact h x.2 hlo (by omega)
  have hpre := others pre 0 (by omega)
  have hpost := others post (pre.length + 1) (by omega)
  simp [startAt, List.zipIdx_append, List.zipIdx_cons, hpre, hpost]

/-! ### The edges before the start -/

theorem RowLine.takeEdge_backoff (l : RowLine) (e : Edge) : (l.takeEdge e).backoff = l.backoff := by
  unfold RowLine.takeEdge
  split <;> rfl

theorem State.takeEdges_backoff (gap blind : Nat) : ∀ (edges : List Edge) (s : State),
    (s.takeEdges gap blind edges).line.backoff = s.line.backoff
  | [], _ => rfl
  | e :: es, s => by
    unfold State.takeEdges
    split
    · rw [State.takeEdges_backoff gap blind es, State.takeEdge, State.withLine_line, RowLine.takeEdge_backoff]
    · rfl

/-- The edges that are read leave the gap, which is that of the position and the back-off (R97, R98). -/
theorem State.readEdges_idleGap (s : State) (gap blind : Nat) : (s.readEdges gap blind).idleGap = s.idleGap := by
  have hbackoff : (s.readEdges gap blind).line.backoff = s.line.backoff := by
    unfold State.readEdges
    split
    · rfl
    · exact State.takeEdges_backoff _ _ _ s
  have hposition := State.position_congr ((s.readEdges_frame gap blind).blocks .startup (by decide))
  rw [State.idleGap, State.idleGap, hbackoff, hposition]

/-- An edge that comes too late to be seen, with those after it, changes nothing (R97). -/
theorem State.readEdges_late {s : State} {gap blind : Nat} {e : Edge} {es : List Edge} (hedges : s.line.edges = e :: es)
    (hfrom : ∀ x ∈ e :: es, s.line.idleFrom ≤ x.moment) (hlate : s.seesEdge gap blind e = false) :
    s.readEdges gap blind = s := by
  have hall : (e :: es).filter (fun x => decide (s.line.idleFrom ≤ x.moment)) = e :: es :=
    List.filter_eq_self.2 fun x hx => decide_eq_true (hfrom x hx)
  unfold State.readEdges
  split
  · rfl
  · rw [hedges, hall, State.takeEdges_unseen hlate, ← hedges]
    rfl

/-! ### The start -/

/-- Time reaches a moment while the clock runs: it moves the clock and the offset only. -/
theorem State.toMoment_runs {s : State} (hruns : s.clockRuns = true) (m : Nat) :
    ∃ c, s.toMoment m = s.withCadence c ∧ c.clock = max s.cadence.clock m ∧ s.cadence.sameButTime c := by
  refine ⟨_, State.toMoment_eq hruns m, ?_, rfl⟩
  simp only [Cadence.advance]
  omega

/-- A part that begins its characters now counts no idle, and drives them bit by bit (R92, R96). -/
theorem State.waitBits_sending {t : State} (hruns : t.clockRuns = true) (htx : t.line.tx = .sending)
    (hfrom : t.line.txFrom = t.cadence.clock) (n : Nat) : (t.waitBits n).idleCount = 0 ∧
      (t.waitBits n).drivesLow = ((t.line.sending.flatMap characterLevels)[n]? == some false) := by
  rw [State.waitBits_eq hruns]
  have hsending : (t.withCadence (t.cadence.advance (n * 2048))).transmitter = .sending := by
    simp [State.transmitter, RowLine.sends, htx]
  have hbit : (t.cadence.clock + n * 2048 - t.line.txFrom) / Config.unitsPerBit = n := by
    rw [hfrom, Nat.add_sub_cancel_left]
    exact Nat.mul_div_cancel n (by decide)
  refine ⟨State.idleCount_sending hsending, ?_⟩
  simp only [State.drivesLow, hsending]
  exact congrArg (fun b => (t.line.sending.flatMap characterLevels)[b]? == some false) hbit

section Start

variable {s u : State} (hu : u = s.readEdges s.idleGap 2048)
include hu

theorem exec_noticeStart_held (h : ¬(u.line.tx = .waiting ∧ u.line.quietFrom = none ∧ u.line.lowFrom = none ∧
    u.cadence.mark ≠ .pending)) : exec .noticeStart s = .next u := by
  subst hu
  exact congrArg Host.Outcome.next (if_neg h)

theorem exec_noticeStart_begins (h : u.line.tx = .waiting ∧ u.line.quietFrom = none ∧ u.line.lowFrom = none ∧
    u.cadence.mark ≠ .pending) {pre post : List Queued} {q : Queued} {p : Nat} (hqueue : u.line.queue = pre ++ q :: post)
    (hplace : sendPlace u.line.queue 0 = some (pre.length, p)) : exec .noticeStart s =
      .next ((u.toMoment (u.line.idleFrom + s.idleGap * 2048)).beginNotice pre.length q.notice) := by
  have hchoice : (sendPlace u.line.queue 0).bind (fun p => (u.line.queue[p.1]?).map (fun q => (p.1, q.notice))) =
      some (pre.length, q.notice) := by
    rw [hplace, hqueue]
    simp
  have hgap : u.idleGap = s.idleGap := hu ▸ s.readEdges_idleGap _ _
  rw [← hgap]
  subst hu
  refine congrArg Host.Outcome.next ((if_pos h).trans ?_)
  rw [show Config.unitsPerBit = 2048 from rfl, hchoice]
  rfl

end Start

/-- Settles O41: the edges that are seen hold the start or leave it, and the place that begins is that of the choice of R110. -/
theorem noticeBegins : Obligations.NoticeBegins := by
  unfold Obligations.NoticeBegins
  rintro s u gap hgap hu hruns
  obtain rfl : gap = s.idleGap := hgap
  refine ⟨fun e es hedges hfrom hlow hlate => ?_, fun hheld => ?_, fun htx hquiet hlow hmark hsome => ?_⟩
  · rw [hu]
    refine State.readEdges_late hedges hfrom ?_
    simpa [State.seesEdge, hlow, Config.unitsPerBit] using hlate
  · refine exec_noticeStart_held hu ?_
    rintro ⟨htx, hquiet, hlow, hmark⟩
    simp [htx, hquiet, hlow, hmark] at hheld
  · obtain ⟨x, hx, hother⟩ := hsome
    cases hplace : sendPlace u.line.queue 0 with
    | none => exact absurd (sendPlace_none hplace x hx) hother
    | some place =>
      obtain ⟨j, p⟩ := place
      obtain ⟨pre, q, post, hqueue, hj, -, hq⟩ := sendPlace_some hplace
      rw [hj, Nat.zero_add] at hplace
      have hstartup : u.startup = s.startup := hu ▸ (s.readEdges_frame s.idleGap 2048).blocks .startup (by decide)
      have hrunsU : u.clockRuns = true := by rwa [State.clockRuns, hstartup]
      obtain ⟨c, hc, hclock, htime⟩ := State.toMoment_runs hrunsU (u.line.idleFrom + s.idleGap * 2048)
      have hexec := exec_noticeStart_begins hu ⟨htx, hquiet, hlow, hmark⟩ hqueue hplace
      rw [hc] at hexec
      refine ⟨_, hexec, (u.withCadence_frame c).then (State.withLine_frame _ _) (by simp) (by simp), htime, hclock,
        State.waitBits_sending hrunsU rfl rfl, pre, post, q, hqueue, hq.chosen, hq.before, hq.after, ?_⟩
      rw [← State.position_congr hstartup, State.beginNotice, State.withLine_line, State.withCadence_line, hqueue, startAt_split]
      rfl

end Sys2Proof.Machine
end

section
/-! CERTIFICATE. COLLISION: the notice that is stopped keeps its place, or leaves the queue with or without a drop report (R98, R99, R109,
R130, R145). -/

namespace Sys2Proof.Machine

/-! ### Drop reports -/

/-- The line but for its queue and the drop reports that wait. -/
def RowLine.sameButQueue (l m : RowLine) : Prop := m = { l with queue := m.queue, dropped := m.dropped }

theorem RowLine.sameButQueue.trans {l m n : RowLine} (h : l.sameButQueue m) (k : m.sameButQueue n) : l.sameButQueue n := by
  unfold RowLine.sameButQueue at *
  rw [k, h]

theorem State.offerAll_line (ns : List Notice) : ∀ s : State, s.line.sameButQueue (s.offerAll ns).line := by
  induction ns with
  | nil => exact fun _ => rfl
  | cons n ns ih =>
    refine fun s => RowLine.sameButQueue.trans ?_ (ih (s.offer n))
    unfold State.offer
    split <;> rfl

theorem State.weighListed_line (s : State) (ties : Ties) (a : Adjudication) :
    s.line.sameButQueue (s.weighListed ties a).line := by
  unfold State.weighListed
  dsimp only
  split
  · rfl
  · exact State.offerAll_line _ (s.withList _)

theorem State.dropReport_line (s : State) (ties : Ties) (n : Notice) : s.line.sameButQueue (s.dropReport ties n).line := by
  unfold State.dropReport
  split
  · split
    · exact s.weighListed_line ties _
    · rfl
  · rfl
  · rfl

theorem State.takeReports_line (ties : Ties) : ∀ (fuel : Nat) (s : State), s.line.sameButQueue (s.takeReports ties fuel).line
  | 0, _ => rfl
  | fuel + 1, s => by
    unfold State.takeReports
    split
    · rfl
    · case h_2 n rest _ =>
      have hreport := (s.withLine { s.line with dropped := rest }).dropReport_line ties n
      exact RowLine.sameButQueue.trans (m := { s.line with dropped := rest }) rfl
        (hreport.trans (State.takeReports_line ties fuel _))

/-- The drop reports that wait move the queue of the line and nothing else of it. -/
theorem State.finishOffers_line (s : State) (ties : Ties) : s.line.sameButQueue (s.finishOffers ties).line :=
  State.takeReports_line ties _ s

/-- One drop report that leads to no other is all there is to take. -/
theorem State.finishOffers_one {s : State} {ties : Ties} {n : Notice} (h : s.line.dropped = [n])
    (hlast : ((s.withLine { s.line with dropped := [] }).dropReport ties n).line.dropped = []) :
    s.finishOffers ties = (s.withLine { s.line with dropped := [] }).dropReport ties n := by
  rw [State.finishOffers, reportFuel, State.takeReports, h]
  simp [State.takeReports, hlast]

/-- A drop report of another kind than a CALL and a final VERDICT part changes nothing (R99, R109). -/
theorem State.dropReport_other {n : Notice} (hverdict : ∀ id lane part es, n ≠ .verdict id lane part true es)
    (hcall : ∀ id lane a b, n ≠ .call id lane a b) (s : State) (ties : Ties) : s.dropReport ties n = s := by
  cases n with
  | call id lane a b => exact absurd rfl (hcall id lane a b)
  | verdict id lane part final es =>
    cases final with
    | true => exact absurd rfl (hverdict id lane part es)
    | false => rfl
  | cadence | status | evidence | settlement | alarm | ack | journalCall | journal => rfl

/-- A drop report for the CALL of no COLLECTING adjudication changes nothing (R130). -/
theorem State.dropReport_call_none {s : State} {id : Byte} (h : ∀ a ∈ s.adj.list, ¬(a.callId = id ∧ a.state = .collecting))
    (ties : Ties) (lane : Byte) (first last : Stamp) : s.dropReport ties (.call id lane first last) = s := by
  have hnone : s.adj.list.find? (fun a => a.callId == id && a.state == .collecting) = none :=
    List.find?_eq_none.2 fun a ha => by simpa using h a ha
  simp [State.dropReport, hnone]

/-! ### An adjudication of the list weighed -/

/-- Weighing an adjudication of the list, with room for the parts of its VERDICT, does what WeighedTo says, and drops nothing. -/
theorem State.weighListed_room {s : State} {a : Adjudication} (room : s.HasRoom 3) (few : a.candidates.length ≤ 24) (ties : Ties) :
    WeighedTo s ties (s.scales.weigh a) (s.weighListed ties a) ∧ (s.weighListed ties a).line.dropped = [] := by
  have hparts : (s.scales.weigh a).verdicts.length ≤ 3 := Adjudication.verdicts_length (by rwa [Scales.weigh_length])
  unfold State.weighListed
  by_cases hw : (s.scales.weigh a).attributed = []
  · simp only [hw, List.isEmpty_nil, if_true]
    exact ⟨⟨fun _ => ⟨rfl, rfl, rfl⟩, fun hsome => absurd hw hsome⟩, room.quiet⟩
  · have hnonempty : ¬(s.scales.weigh a).attributed.isEmpty = true := by rwa [List.isEmpty_iff]
    have hroom : (s.withList (replaceAdj (s.scales.weigh a) s.adj.list)).HasRoom (s.scales.weigh a).verdicts.length :=
      HasRoom.mono ⟨room.awake, room.fits, room.quiet⟩ hparts
    rw [if_neg hnonempty, State.giveVerdict_room hroom]
    exact ⟨⟨fun hnone => absurd hnone hw, fun _ => ⟨rfl, rfl, rfl, rfl, rfl⟩⟩, room.quiet⟩

/-- WeighedTo reads the adjudicator, the queue, the table and the stamp. -/
theorem WeighedTo.congr {s s' t : State} {ties : Ties} {w : Adjudication} (h : WeighedTo s ties w t) (hadj : s.adj = s'.adj)
    (hqueue : s.line.queue = s'.line.queue) (hsightings : s.sightings = s'.sightings) (hstamp : s.stamp = s'.stamp) :
    WeighedTo s' ties w t := by
  obtain ⟨hended, hgiven⟩ := h
  rw [hadj, hqueue, hsightings] at hended hgiven
  rw [hstamp] at hgiven
  exact ⟨hended, hgiven⟩

/-! ### The collision -/

theorem Notice.isCadence_iff (n : Notice) : isCadence n = true ↔ n.priority = 1 := by cases n <;> simp [isCadence, Notice.priority]

/-- What the queue keeps of the notice: nothing of a CADENCE, of a withdrawn notice and of one at its eighth failure (R98, R99, R109). -/
theorem collideEntry_eq (q : Queued) : collideEntry q = if q.notice.priority = 1 ∨ q.withdrawn = true ∨ 7 ≤ q.attempts then none
    else some { q with attempts := q.attempts + 1, inTransmission := false } := by
  obtain ⟨n, attempts, busy, withdrawn⟩ := q
  cases n <;> cases withdrawn <;> simp [collideEntry, Notice.priority, maxAttempts]

/-- The drop report is that of the eighth failure, but of no CADENCE and of no withdrawn notice (R99, R109). -/
theorem collisionDrop_eq (q : Queued) : collisionDrop q =
    if q.notice.priority ≠ 1 ∧ q.withdrawn = false ∧ 7 ≤ q.attempts then some q.notice else none := by
  obtain ⟨n, attempts, busy, withdrawn⟩ := q
  cases n <;> cases withdrawn <;> simp [collisionDrop, Notice.priority, maxAttempts]

/-- The line at a collision at `clock`: WAITING under back-off on a line that is low (R98). -/
def RowLine.collided (l : RowLine) (clock : Nat) (queue : List Queued) (dropped : List Notice) : RowLine :=
  { l with
    tx := .waiting
    sending := []
    backoff := true
    idleFrom := clock
    lowFrom := some clock
    rx := l.rx.notOwn
    queue := queue
    dropped := dropped }

/-- The state at a collision before its drop report is taken. -/
def State.collided (s : State) (c : Cadence) (queue : List Queued) (dropped : List Notice) : State :=
  (s.withCadence c).withLine (s.line.collided c.clock queue dropped)

theorem State.collided_frame (s : State) (c : Cadence) (queue : List Queued) (dropped : List Notice) :
    SameBut s [.cadence, .line] (s.collided c queue dropped) :=
  (s.withCadence_frame c).then (State.withLine_frame _ _) (by simp) (by simp)

/-- The collision's drop report, when it leads to no other, is taken from the line that the collision leaves. -/
theorem State.collided_reported {s : State} {c : Cadence} {queue : List Queued} {n : Notice} {ties : Ties}
    (h : ((s.collided c queue []).dropReport ties n).line.dropped = []) :
    (s.collided c queue [n]).finishOffers ties = (s.collided c queue []).dropReport ties n :=
  State.finishOffers_one rfl h

/-- A drop report that changes nothing leaves what the collision leaves. -/
theorem State.collided_unmoved {s : State} {c : Cadence} {queue : List Queued} {n : Notice} {ties : Ties}
    (h : (s.collided c queue []).dropReport ties n = s.collided c queue []) :
    (s.collided c queue [n]).finishOffers ties = s.collided c queue [] :=
  (State.collided_reported (by rw [h]; rfl)).trans h

/-- The drop report of a CALL weighs its adjudication against the queue that the collision leaves (R130). -/
theorem State.collided_weighed {s : State} {c : Cadence} (htime : s.cadence.sameButTime c) {queue : List Queued}
    {id : Byte} {a : Adjudication} (ha : a ∈ s.adj.list) (hid : a.callId = id) (hstate : a.state = .collecting)
    (honly : ∀ x ∈ s.adj.list, x.callId = id → x = a) (few : a.candidates.length ≤ 24) (hroom : queue.length + 3 ≤ 12)
    (ties : Ties) (lane : Byte) (first last : Stamp) :
    ((s.collided c queue [.call id lane first last]).finishOffers ties).line.dropped = [] ∧
      WeighedTo (s.withLine { s.line with queue := queue }) ties (s.scales.weigh { a with evidence := .nothing })
        ((s.collided c queue [.call id lane first last]).finishOffers ties) := by
  have hfind : s.adj.list.find? (fun x => x.callId == id && x.state == .collecting) = some a := by
    obtain ⟨x, hx⟩ : ∃ x, s.adj.list.find? (fun x => x.callId == id && x.state == .collecting) = some x :=
      Option.isSome_iff_exists.1 (List.find?_isSome.2 ⟨a, ha, by simp [hid, hstate]⟩)
    have hxid : x.callId = id ∧ x.state = .collecting := by simpa using List.find?_some hx
    rw [hx, honly x (List.mem_of_find?_eq_some hx) hxid.1]
  have hstamp : (s.collided c queue []).stamp = s.stamp := by
    have hc : c = { s.cadence with clock := c.clock, offset := c.offset } := htime
    change (⟨c.superFrame, c.frameIdx⟩ : Stamp) = _
    rw [hc]
    rfl
  have room : (s.collided c queue []).HasRoom 3 := ⟨TxState.noConfusion, hroom, rfl⟩
  obtain ⟨hweighed, hdropped⟩ := State.weighListed_room (a := { a with evidence := .nothing }) room few ties
  have hreport := State.dropReport_call (s := s.collided c queue []) hfind ties lane first last
  rw [State.collided_reported (by rw [hreport]; exact hdropped), hreport]
  exact ⟨hdropped, hweighed.congr rfl rfl rfl hstamp⟩

/-- Whether or not the entry to SENDING has been written down, a collision ends it (R94, R98). -/
theorem State.startLead_collide (s : State) (q : Queued) : s.startLead.collide q = s.collide q := by
  unfold State.startLead
  split <;> rfl

section Collision

variable {s : State} {q : Queued} {pre post : List Queued}

theorem State.collide_eq (hdropped : s.line.dropped = []) (hqueue : s.line.queue = pre ++ q :: post)
    (hothers : ∀ x ∈ pre ++ post, x.inTransmission = false) (hq : q.inTransmission = true) :
    s.collide q = s.collided (if q.notice.priority = 1 then { s.cadence with mark := .absent } else s.cadence)
      (pre ++ ((collideEntry q).toList ++ post)) (collisionDrop q).toList := by
  have others : ∀ l : List Queued, (∀ x ∈ l, x.inTransmission = false) →
      l.filterMap (fun x => if x.inTransmission then collideEntry x else some x) = l := fun l hl => by
    rw [List.filterMap_congr (g := some) fun x hx => by simp [hl x hx], List.filterMap_some]
  have hpre := others pre fun x hx => hothers x (List.mem_append_left _ hx)
  have hpost := others post fun x hx => hothers x (List.mem_append_right _ hx)
  have hleft : s.line.queue.filterMap (fun x => if x.inTransmission then collideEntry x else some x) =
      pre ++ ((collideEntry q).toList ++ post) := by
    rw [hqueue, List.filterMap_append, List.filterMap_cons, hpre, hpost, if_pos hq]
    cases collideEntry q <;> rfl
  unfold State.collide
  rw [hleft, hdropped]
  by_cases hcadence : q.notice.priority = 1
  · rw [if_pos hcadence]
    exact if_pos (q.notice.isCadence_iff.2 hcadence)
  · rw [if_neg hcadence]
    exact if_neg (q.notice.isCadence_iff.not.2 hcadence)

theorem exec_collision_eq {bit : Nat} (hruns : s.clockRuns = true)
    (hsends : s.line.tx = .sending ∨ (s.line.tx = .brk ∧ s.line.sending ≠ [])) (hbit : s.line.sentLevel bit = some true)
    (hdropped : s.line.dropped = []) (hqueue : s.line.queue = pre ++ q :: post)
    (hothers : ∀ x ∈ pre ++ post, x.inTransmission = false) (hq : q.inTransmission = true) :
    ∃ c, c.clock = max s.cadence.clock (s.line.txFrom + bit * 2048 + 1024) ∧ s.cadence.sameButTime c ∧
      exec (.collision bit) s = .next ((s.collided (if q.notice.priority = 1 then { c with mark := .absent } else c)
        (pre ++ ((collideEntry q).toList ++ post)) (collisionDrop q).toList).finishOffers .none) := by
  obtain ⟨c, hc, hclock, htime⟩ := State.toMoment_runs hruns (s.line.txFrom + bit * 2048 + 1024)
  have hsending : s.line.sends = true := by simpa [RowLine.sends] using hsends
  have hfind : inTransmission s.line.queue = some q := by
    rw [inTransmission, hqueue, List.find?_append,
      List.find?_eq_none.2 fun x hx => by simp [hothers x (List.mem_append_left _ hx)]]
    simp [hq]
  have hcollide := State.collide_eq (s := s.withCadence c) hdropped hqueue hothers hq
  refine ⟨c, hclock, htime, ?_⟩
  change execCollision bit s = _
  rw [execCollision, hsending, hbit, hfind]
  change Host.Outcome.next (((s.toMoment (s.line.txFrom + bit * 2048 + 1024)).startLead.collide q).finishOffers .none) = _
  rw [State.startLead_collide, hc, hcollide]
  rfl

end Collision

/-- A collision that brings no drop report leaves what it leaves. -/
theorem State.collided_silent {s : State} {c : Cadence} {queue : List Queued} {report : Option Notice} (h : report = none)
    (ties : Ties) : (s.collided c queue report.toList).finishOffers ties = s.collided c queue [] := by
  subst h
  exact State.finishOffers_none ties rfl

/-- Settles O42: what is left of the notice and whether it is reported decide each clause; a report is taken by its kind. -/
theorem collisionsCounted : Obligations.CollisionsCounted := by
  unfold Obligations.CollisionsCounted
  intro s bit q pre post hruns hsends hbit hdropped hqueue hothers hq
  obtain ⟨c, hclock, htime, hexec⟩ := exec_collision_eq hruns hsends hbit hdropped hqueue hothers hq
  generalize hm : (if q.notice.priority = 1 then { c with mark := .absent } else c : Cadence) = m at hexec
  have hcadence : q.notice.priority = 1 → m = { c with mark := .absent } := fun hp => hm ▸ if_pos hp
  have hother : q.notice.priority ≠ 1 → m = c := fun hp => hm ▸ if_neg hp
  have hmclock : m.clock = c.clock := by
    by_cases hp : q.notice.priority = 1
    · rw [hcadence hp]
    · rw [hother hp]
  have hreports := State.finishOffers_frame (s.collided m (pre ++ ((collideEntry q).toList ++ post)) (collisionDrop q).toList) .none
  have hline := State.finishOffers_line (s.collided m (pre ++ ((collideEntry q).toList ++ post)) (collisionDrop q).toList) .none
  have hmoved := hreports.blocks .cadence (by decide)
  refine ⟨_, hexec, (s.collided_frame m _ _).then hreports (by simp) (by simp),
    (congrArg Cadence.clock hmoved).trans (hmclock.trans hclock), by rw [hmoved]; exact hline, fun hp hw ha => ?_,
    fun hp hw => ?_, fun hp => ?_, fun hp hw ha => ?_⟩
  · have hnone : collisionDrop q = none := by simp [collisionDrop_eq, Nat.not_le.2 ha]
    have hentry : collideEntry q = some { q with attempts := q.attempts + 1, inTransmission := false } := by
      simp [collideEntry_eq, hp, hw, Nat.not_le.2 ha]
    rw [hother hp, State.collided_silent hnone, hentry]
    exact ⟨s.collided_frame c _ _, htime, rfl, rfl⟩
  · have hnone : collisionDrop q = none := by simp [collisionDrop_eq, hw]
    have hentry : collideEntry q = none := by simp [collideEntry_eq, hw]
    rw [hother hp, State.collided_silent hnone, hentry]
    exact ⟨s.collided_frame c _ _, htime, rfl, rfl⟩
  · have hnone : collisionDrop q = none := by simp [collisionDrop_eq, hp]
    have hentry : collideEntry q = none := by simp [collideEntry_eq, hp]
    rw [hcadence hp, State.collided_silent hnone, hentry]
    exact ⟨s.collided_frame _ _ _, rfl, rfl, rfl⟩
  · have hsome : collisionDrop q = some q.notice := by simp [collisionDrop_eq, hp, hw, ha]
    have hentry : collideEntry q = none := by simp [collideEntry_eq, ha]
    rw [hother hp, hsome, hentry, Option.toList_none, Option.toList_some, List.nil_append] at hmoved ⊢
    refine ⟨by rw [hmoved]; exact htime, fun id lane part es hn => ?_, fun hverdict hcall => ?_, fun id lane first last hn =>
      ⟨fun hunlisted => ?_, fun a hlisted hid hstate honly few hroom => ?_⟩⟩
    · rw [hn]
      exact ⟨rfl, rfl, rfl, rfl⟩
    · rw [State.collided_unmoved (State.dropReport_other hverdict hcall _ _)]
      exact ⟨s.collided_frame c _ _, rfl, rfl⟩
    · rw [hn, State.collided_unmoved (State.dropReport_call_none (s := s.collided c _ _) hunlisted .none lane first last)]
      exact ⟨s.collided_frame c _ _, rfl, rfl⟩
    · rw [hn]
      exact State.collided_weighed htime hlisted hid hstate honly few (by rw [List.length_append]; exact hroom) .none lane first last

end Sys2Proof.Machine
end

section
/-! SUPPORT. The expiries of the neighbour table, the claims and the carried-in list: each as one replacement of its block, in which what
is not due stays (R118, R120, R121, R144, R152). -/

namespace Sys2Proof.Machine

/-! ### The neighbour table -/

/-- The bound of R118 for a west record, with every field of the record named. -/
theorem WestRecord.expire_eq (r : WestRecord) :
    r.expire = if 6 ≤ r.silence ∧ r.presence ≠ .absent then ⟨.absent, r.silence, none, .noAlarm, false⟩ else r := rfl

/-- The bound of R118 for an east record, with every field of the record named. -/
theorem EastRecord.expire_eq (r : EastRecord) :
    r.expire = if 6 ≤ r.silence ∧ r.presence ≠ .absent then ⟨.absent, r.silence, none⟩ else r := rfl

/-- A silence below the bound replaces the fault by itself. -/
theorem exec_lineSilent_eq (s : State) :
    exec .lineSilent s = .next (s.withNeighbours { s.neighbours with
      lineSilent := s.neighbours.lineSilent || decide (6 ≤ s.neighbours.lineSilence) }) := by
  change Host.Outcome.next (if 6 ≤ s.neighbours.lineSilence then _ else s) = _
  by_cases hdue : 6 ≤ s.neighbours.lineSilence
  · rw [if_pos hdue, decide_eq_true hdue, Bool.or_true]
  · rw [if_neg hdue, decide_eq_false hdue, Bool.or_false]
    rfl

/-- A condition that is not set, or not counted to the bound, is replaced by itself. -/
theorem exec_clashClear_eq (s : State) :
    exec .clashClear s = .next (s.withNeighbours { s.neighbours with
      clash := s.neighbours.clash && decide (s.neighbours.clashCount < 20) }) := by
  change Host.Outcome.next (if s.neighbours.clash = true ∧ 20 ≤ s.neighbours.clashCount then _ else s) = _
  by_cases hdue : s.neighbours.clash = true ∧ 20 ≤ s.neighbours.clashCount
  · rw [if_pos hdue, decide_eq_false (Nat.not_lt.2 hdue.2), Bool.and_false]
  · have hstays : (s.neighbours.clash && decide (s.neighbours.clashCount < 20)) = s.neighbours.clash :=
      Bool.and_eq_left_iff_imp.2 fun hset => decide_eq_true (Nat.not_le.1 fun hcount => hdue ⟨hset, hcount⟩)
    rw [if_neg hdue, hstays]
    rfl

/-! ### Entries counted to 0 -/

/-- Keeping the entries with a positive count is keeping those not counted to 0. -/
theorem filter_count_pos {α : Type} (count : α → Nat) (l : List α) :
    l.filter (fun x => 0 < count x) = l.filter (fun x => count x ≠ 0) :=
  List.filter_congr fun _ _ => decide_eq_decide.2 Nat.pos_iff_ne_zero

theorem exec_claimExpiry_eq (s : State) :
    exec .claimExpiry s = .next (s.withAdj { s.adj with claims := s.adj.claims.filter (fun c => c.remaining ≠ 0) }) := by
  rw [← filter_count_pos Claim.remaining]
  rfl

theorem exec_carriedInExpiry_eq (s : State) :
    exec .carriedInExpiry s = .next (s.withCarried (s.carried.filter (fun e => e.grace ≠ 0))) := by
  rw [← filter_count_pos CarriedEntry.grace]
  rfl

/-- Settles O59: each expiry is one replacement of its block, by the value that its bound decides. -/
theorem dueExpiriesTaken : Obligations.DueExpiriesTaken := by
  unfold Obligations.DueExpiriesTaken
  intro s
  refine ⟨⟨_, rfl, s.withNeighbours_frame _, ?_⟩, ⟨_, exec_lineSilent_eq s, s.withNeighbours_frame _, rfl⟩,
    ⟨_, exec_clashClear_eq s, s.withNeighbours_frame _, rfl⟩, ⟨_, exec_claimExpiry_eq s, s.withAdj_frame _, rfl⟩,
    ⟨_, exec_carriedInExpiry_eq s, s.withCarried_frame _, rfl⟩⟩
  rw [State.withNeighbours_neighbours, WestRecord.expire_eq, EastRecord.expire_eq]

end Sys2Proof.Machine
end

section
/-! CERTIFICATE. The parts of a notice body: what they hold, how many there are, and how they are numbered (R131, R141, R148). -/

namespace Sys2Proof.Machine

section Cut

variable {α : Type} {n : Nat}

theorem cutInto_cons (n fuel : Nat) (x : α) (l : List α) :
    cutInto n (fuel + 1) (x :: l) = (x :: l).take n :: cutInto n fuel ((x :: l).drop n) := rfl

/-- The parts one after another are the list that was cut. -/
theorem cutInto_flatten (hn : 0 < n) : ∀ (fuel : Nat) {l : List α}, l.length ≤ fuel → (cutInto n fuel l).flatten = l
  | 0, l, h => (List.eq_nil_of_length_eq_zero (Nat.le_zero.1 h)).symm
  | _ + 1, [], _ => rfl
  | fuel + 1, x :: l, h => by
    have hrest : ((x :: l).drop n).length ≤ fuel := by rw [List.length_drop]; omega
    rw [cutInto_cons, List.flatten_cons, cutInto_flatten hn fuel hrest, List.take_append_drop]

theorem length_le_of_mem_cutInto : ∀ (fuel : Nat) {l part : List α}, part ∈ cutInto n fuel l → part.length ≤ n
  | 0, _, _, h => absurd h List.not_mem_nil
  | _ + 1, [], _, h => absurd h List.not_mem_nil
  | fuel + 1, x :: l, part, h => by
    obtain rfl | hrest := List.mem_cons.1 h
    · exact List.length_take_le n _
    · exact length_le_of_mem_cutInto fuel hrest

/-- A list is cut into as many parts as its entries fill, the last one perhaps in part. -/
theorem cutInto_length_eq (hn : 0 < n) : ∀ (fuel : Nat) {l : List α}, l.length ≤ fuel →
    (cutInto n fuel l).length = (l.length + n - 1) / n
  | 0, l, h => by
    obtain rfl := List.eq_nil_of_length_eq_zero (Nat.le_zero.1 h)
    exact (Nat.div_eq_of_lt (by simp; omega)).symm
  | _ + 1, [], _ => (Nat.div_eq_of_lt (by simp; omega)).symm
  | fuel + 1, x :: l, h => by
    have hrest : ((x :: l).drop n).length ≤ fuel := by rw [List.length_drop]; omega
    have hcut := cutInto_length_eq hn fuel hrest
    have hpos : 0 < (x :: l).length := Nat.succ_pos _
    rw [cutInto_cons, List.length_cons, hcut, List.length_drop]
    generalize (x :: l).length = m at hpos ⊢
    by_cases hfull : n ≤ m
    · rw [show m + n - 1 = m - n + n - 1 + n by omega, Nat.add_div_right _ hn]
    · rw [show m + n - 1 = m - 1 + n by omega, Nat.add_div_right _ hn, Nat.div_eq_of_lt (by omega),
        Nat.div_eq_of_lt (by omega)]

/-- A body with entries is cut; one with none is one empty part. -/
theorem partsOf_cases (n : Nat) (l : List α) : l = [] ∧ partsOf n l = [[]] ∨ l ≠ [] ∧ partsOf n l = cutInto n l.length l := by
  cases l with
  | nil => exact .inl ⟨rfl, rfl⟩
  | cons x l => exact .inr ⟨by simp, rfl⟩

theorem partsOf_flatten (hn : 0 < n) (l : List α) : (partsOf n l).flatten = l := by
  obtain ⟨rfl, hparts⟩ | ⟨-, hparts⟩ := partsOf_cases n l <;> rw [hparts]
  · rfl
  · exact cutInto_flatten hn _ le_rfl

theorem length_le_of_mem_partsOf {l part : List α} (h : part ∈ partsOf n l) : part.length ≤ n := by
  obtain ⟨rfl, hparts⟩ | ⟨-, hparts⟩ := partsOf_cases n l <;> rw [hparts] at h
  · obtain rfl := List.mem_singleton.1 h
    exact Nat.zero_le n
  · exact length_le_of_mem_cutInto _ h

theorem partsOf_length_eq (hn : 0 < n) (l : List α) : (partsOf n l).length = max 1 ((l.length + n - 1) / n) := by
  obtain ⟨rfl, hparts⟩ | ⟨hl, hparts⟩ := partsOf_cases n l <;> rw [hparts]
  · rw [List.length_nil, Nat.zero_add, Nat.div_eq_of_lt (by omega)]
    rfl
  · have hpos : 0 < l.length := List.length_pos_iff.2 hl
    have hone : 1 ≤ (l.length + n - 1) / n := (Nat.one_le_div_iff hn).2 (by omega)
    rw [cutInto_length_eq hn _ le_rfl, Nat.max_eq_right hone]

/-- A numbered part: its place, whether it is the last one, and the part. -/
theorem numberParts_getElem? (ps : List (List α)) (i : Nat) :
    (numberParts ps)[i]? = ps[i]?.map (fun p => (BitVec.ofNat 4 i, i + 1 == ps.length, p)) := by
  simp [numberParts, List.getElem?_zipIdx, Function.comp_def]

/-- Numbering keeps the parts and their order. -/
theorem numberParts_parts (ps : List (List α)) : (numberParts ps).map (fun x => x.2.2) = ps := by
  refine List.ext_getElem? fun i => ?_
  rw [List.getElem?_map, numberParts_getElem?, Option.map_map]
  exact Option.map_id'

end Cut

/-- Settles O45: numbering keeps the parts, and the parts are those of the cut. -/
theorem partsCutInOrder : Obligations.PartsCutInOrder := by
  unfold Obligations.PartsCutInOrder
  intro α n l hn
  refine ⟨?_, fun x hx => ?_, ?_, fun i x hx => ?_⟩
  · rw [List.flatMap_def, numberParts_parts, partsOf_flatten hn]
  · have hpart : x.2.2 ∈ (numberParts (partsOf n l)).map (fun x => x.2.2) := List.mem_map_of_mem hx
    rw [numberParts_parts] at hpart
    exact length_le_of_mem_partsOf hpart
  · rw [numberParts_length, partsOf_length_eq hn]
  · rw [numberParts_getElem?] at hx
    obtain ⟨part, -, rfl⟩ := Option.map_eq_some_iff.1 hx
    rw [numberParts_length]
    exact ⟨rfl, beq_iff_eq⟩

end Sys2Proof.Machine
end

section
/-! CERTIFICATE. Weighing: the share, the attribution and the kind of a candidate (R137 to R140, R157). -/

namespace Sys2Proof.Machine

/-! ### The share (R138) -/

theorem shareOf_zero {w o : Nat} (h : w + o = 0) : shareOf w o = 0 := if_pos h

theorem shareOf_pos {w o : Nat} (h : 0 < w + o) : shareOf w o = 255 * w / (w + o) := if_neg (Nat.ne_of_gt h)

theorem shareOf_le (w o : Nat) : shareOf w o ≤ 255 := by
  obtain h | h := Nat.eq_zero_or_pos (w + o)
  · rw [shareOf_zero h]
    exact Nat.zero_le _
  · rw [shareOf_pos h]
    exact Nat.div_le_of_le_mul (by rw [Nat.mul_comm (w + o)]; exact Nat.mul_le_mul_left 255 (Nat.le_add_right w o))

/-- The share is the whole part of the quotient. -/
theorem shareOf_bounds {w o : Nat} (h : 0 < w + o) :
    shareOf w o * (w + o) ≤ 255 * w ∧ 255 * w < (shareOf w o + 1) * (w + o) := by
  rw [shareOf_pos h]
  exact ⟨Nat.div_mul_le_self _ _, Nat.lt_mul_of_div_lt (Nat.lt_succ_self _) h⟩

/-! ### The attribution (R137, R139) -/

section Weigh

variable (x : Scales) (a : Adjudication) (c : Candidate)

/-- The threshold in force is NORMAL only with FINAL evidence and no toward face faulted (R137). -/
theorem Scales.thresholdValue_eq (evidence : PartnerEvidence) : x.thresholdValue (x.threshold evidence) =
    if x.ownFaulted = false ∧ x.partnerFaulted = false ∧ evidence = .final then x.settings.normalThreshold
      else x.settings.soloThreshold := by
  unfold Scales.threshold
  cases x.ownFaulted <;> cases x.partnerFaulted <;> cases evidence <;> rfl

/-- No claim keeps the serial from the adjudication when each one for it is its own (R139). -/
theorem not_excluded_iff (claims : List Claim) (lane : Nat) (callId : Byte) (serial : Serial) :
    (!claims.any (excludes lane callId serial)) = true ↔
      ∀ k ∈ claims, k.serial = serial → k.lane = lane ∧ k.callId = callId := by
  have hexcludes : ∀ k : Claim, excludes lane callId serial k = false ↔ (k.serial = serial → k.lane = lane ∧ k.callId = callId) := by
    intro k
    simp [excludes]
  simp only [Bool.not_eq_true', List.any_eq_false, Bool.not_eq_true, hexcludes]

theorem Scales.attributes_iff : x.attributes a c = true ↔
    (x.ownFaulted = false ∨ x.partnerFaulted = false) ∧
      (if x.ownFaulted = false ∧ x.partnerFaulted = false ∧ a.evidence = .final then x.settings.normalThreshold
        else x.settings.soloThreshold) ≤ shareOf c.toward c.away ∧
      x.settings.evidenceFloor ≤ c.toward ∧ 2 ≤ c.reads ∧
      ∀ k ∈ x.claims, k.serial = c.serial → k.lane = a.lane ∧ k.callId = a.callId := by
  have hfaces : (!(x.ownFaulted && x.partnerFaulted)) = true ↔ x.ownFaulted = false ∨ x.partnerFaulted = false := by
    simp
  unfold Scales.attributes
  simp only [Bool.and_eq_true, hfaces, not_excluded_iff, Scales.thresholdValue_eq, decide_eq_true_eq, and_assoc]

/-- A weighed candidate has a kind when it is attributed, and then that of R140. -/
theorem Scales.weighOne_kind : (x.weighOne a c).kind = if x.attributes a c then some (x.kindOf a c) else none := by
  unfold Candidate.kind Scales.weighOne
  cases x.attributes a c <;> rfl

/-! ### The kind (R140, R157) -/

theorem Candidate.alarms_iff : c.alarms = true ↔ (c.kind = some .alarm ∨ c.kind = some .repeated) ∧ c.yielded = false := by
  simp [Candidate.alarms, and_comm]

/-- The serial is held off by a young journal entry or by another HOLDING adjudication in which it stands (R157). -/
theorem Scales.heldOff_iff (serial : Serial) : x.heldOff a serial = true ↔
    (∃ k ∈ x.journal, k.serial = serial ∧ k.age < x.settings.holdOff) ∨
      ∃ b ∈ x.others, b.callId ≠ a.callId ∧ b.state = .holding ∧ ∃ y ∈ b.candidates, y.serial = serial ∧
        (y.kind = some .alarm ∨ y.kind = some .repeated) ∧ y.yielded = false := by
  simp only [Scales.heldOff, Bool.or_eq_true, List.any_eq_true, Bool.and_eq_true, bne_iff_ne, beq_iff_eq, decide_eq_true_eq,
    Candidate.alarms_iff, and_assoc]

theorem Scales.carried_iff (serial : Serial) :
    x.carried.any (fun e => e.serial == serial) = true ↔ ∃ k ∈ x.carried, k.serial = serial := by
  simp only [List.any_eq_true, beq_iff_eq]

variable {x a c}

theorem Scales.kindOf_pass (h : c.unissued = false) : x.kindOf a c = .pass := by
  simp [Scales.kindOf, h]

theorem Scales.kindOf_carriedIn (h : c.unissued = true) (hin : a.direction = .inbound) : x.kindOf a c = .carriedIn := by
  simp [Scales.kindOf, h, hin]

/-- An unissued serial that does not come in: TURNBACK when it was carried in, else REPEAT when it is held off, else ALARM. -/
theorem Scales.kindOf_outgoing (h : c.unissued = true) (hin : a.direction ≠ .inbound) :
    x.kindOf a c = if ∃ k ∈ x.carried, k.serial = c.serial then .turnback
      else if x.heldOff a c.serial = true then .repeated else .alarm := by
  simp only [← Scales.carried_iff]
  simp [Scales.kindOf, h, hin]

end Weigh

/-- Settles O53: an attributed candidate is one with a kind, and its kind is that of its branch of R140. -/
theorem weighingRule : Obligations.WeighingRule := by
  unfold Obligations.WeighingRule
  rintro x a c c' w o rfl rfl rfl
  have hsome : (x.weighOne a c).kind.isSome = true ↔ x.attributes a c = true := by
    rw [Scales.weighOne_kind]
    cases x.attributes a c <;> simp
  have hkind : (x.weighOne a c).kind.isSome = true → (x.weighOne a c).kind = some (x.kindOf a c) := fun h => by
    rw [Scales.weighOne_kind, if_pos (hsome.1 h)]
  refine ⟨shareOf c.toward c.away, rfl, shareOf_le _ _, shareOf_zero, shareOf_bounds, hsome.trans (x.attributes_iff a c),
    fun h hissued => ?_, fun h hunissued hin => ?_, fun h hunissued hout => ?_⟩
  · rw [hkind h, Scales.kindOf_pass hissued]
  · rw [hkind h, Scales.kindOf_carriedIn hunissued hin]
  · rw [hkind h, Scales.kindOf_outgoing hunissued hout]
    refine ⟨fun hcarried => by rw [if_pos hcarried], fun hnew => ?_⟩
    have hnot : ¬∃ k ∈ x.carried, k.serial = c.serial := fun ⟨k, hk, hserial⟩ => hnew k hk hserial
    rw [if_neg hnot]
    refine ⟨fun hheld => by rw [if_pos ((x.heldOff_iff a _).2 hheld)], fun hjournal hothers => ?_⟩
    have hfree : ¬x.heldOff a c.serial = true := by
      rw [Scales.heldOff_iff]
      rintro (⟨k, hk, hserial, hyoung⟩ | ⟨b, hb, hid, hholding, y, hy, hserial, halarm, hstands⟩)
      · exact Nat.not_lt.2 (hjournal k hk hserial) hyoung
      · rw [hothers b hb hid hholding y hy hserial halarm] at hstands
        cases hstands
    rw [if_neg hfree]

end Sys2Proof.Machine
end

section
/-! CERTIFICATE. HOLD_EXPIRY: the adjudications whose hold is over leave the list and settle one after another (R145, R148, R153, R158, R160,
R161, R173). -/

namespace Sys2Proof.Machine

/-! ### The adjudications that are due -/

/-- The first of the adjudications that `p` picks leaves the list: the others that it picks stay. -/
theorem filter_removeAdj {p : Adjudication → Bool} {l rest : List Adjudication} {a : Adjudication} (h : l.filter p = a :: rest)
    (hids : l.Pairwise (fun x y => x.callId ≠ y.callId)) : (removeAdj a.callId l).filter p = rest := by
  have hdue : (a :: rest).Pairwise (fun x y => x.callId ≠ y.callId) := h ▸ hids.filter p
  have hrest : ∀ b ∈ rest, b.callId ≠ a.callId := fun b hb => ((List.pairwise_cons.1 hdue).1 b hb).symm
  rw [removeAdj, List.filter_filter]
  simp only [Bool.and_comm (p _)]
  rw [← List.filter_filter, h, List.filter_cons_of_neg (by simp), List.filter_eq_self.2 fun b hb => by simpa using hrest b hb]

/-! ### One settlement of the list -/

/-- An adjudication of the list settles, with room for its notices (R148). -/
theorem State.settleListed_room {s : State} {a : Adjudication} (room : s.HasRoom 4) (few : a.candidates.length ≤ 24) (ties : Ties) :
    SameBut s [.line, .adj, .carried, .alarm] (s.settleListed ties a) ∧
      (s.settleListed ties a).adj = { s.adj with list := s.adj.list.filter (fun x => x.callId ≠ a.callId) } ∧
      (s.settleListed ties a).line = { s.line with queue := (s.settleListed ties a).line.queue } ∧
      SettledTo s ties a (s.settleListed ties a) := by
  have hframe := (s.withList (removeAdj a.callId s.adj.list)).settle_frame ties a
  obtain ⟨hsettled, hline⟩ := State.settle_settled (s := s.withList (removeAdj a.callId s.adj.list))
    ⟨room.awake, room.fits, room.quiet⟩ few ties
  exact ⟨(s.withList_frame _).then hframe (by simp) (by simp), hframe.blocks .adj (by decide), hline,
    ⟨hsettled.carried, hsettled.journal, hsettled.cursor, hsettled.left, hsettled.raised⟩⟩

/-! ### The command -/

/-- HOLD_EXPIRY told by the adjudications that are due (R145). -/
theorem exec_holdExpiry_eq {s : State} {ties : Ties} {due : List Adjudication}
    (h : s.adj.list.filter (fun x => x.state == .holding && x.hold == some 0) = due) :
    exec (.holdExpiry ties) s = .next ((due.foldl (State.settleListed ties) s).finishOffers ties) := by
  subst h
  rfl

/-- Settles O55: the command is the settlement of the first one due, and then of the others. -/
theorem holdsSettle : Obligations.HoldsSettle := by
  unfold Obligations.HoldsSettle
  refine ⟨fun s ties a room few hone _ => ?_, fun s ties due hdue => ⟨fun hnone hquiet => ?_, fun a rest hfirst room few hids => ?_⟩⟩
  · obtain ⟨hframe, hadj, hline, hsettled⟩ := State.settleListed_room room few ties
    have hquiet : (s.settleListed ties a).line.dropped = [] := by rw [hline]; exact room.quiet
    refine ⟨s.settleListed ties a, ?_, hframe, hadj, hline, hsettled⟩
    rw [exec_holdExpiry_eq hone, List.foldl_cons, List.foldl_nil, State.finishOffers_none ties hquiet]
  · rw [exec_holdExpiry_eq (hdue.symm.trans hnone), List.foldl_nil, State.finishOffers_none ties hquiet]
  · obtain ⟨hframe, hadj, hline, hsettled⟩ := State.settleListed_room room few ties
    have hlater : (s.settleListed ties a).adj.list.filter (fun x => x.state == .holding && x.hold == some 0) = rest := by
      rw [hadj]
      exact filter_removeAdj (hdue.symm.trans hfirst) hids
    refine ⟨s.settleListed ties a, ?_, hframe, hadj, hline, hsettled⟩
    rw [exec_holdExpiry_eq (hdue.symm.trans hfirst), exec_holdExpiry_eq hlater, List.foldl_cons]

end Sys2Proof.Machine
end

section
/-! SUPPORT. The candidates that EVIDENCE entries are merged into, and the records that a snapshot keeps (R127, R131, R134, R135). -/

namespace Sys2Proof.Machine

/-! ### Candidates (R134, R135) -/

section Merge

variable {cs : List Candidate} {e : EvidenceEntry}

theorem any_serial_iff : cs.any (fun c => c.serial == e.serial) = true ↔ ∃ c ∈ cs, c.serial = e.serial := by
  simp only [List.any_eq_true, beq_iff_eq]

/-- An entry of a serial that has a candidate is merged into it (R134). -/
theorem mergeEntry_known (h : ∃ c ∈ cs, c.serial = e.serial) :
    mergeEntry cs e = cs.map (fun c => if c.serial = e.serial then c.merge e else c) := if_pos (any_serial_iff.2 h)

/-- An entry of a new serial joins while there is room (R134). -/
theorem mergeEntry_room (h : ¬∃ c ∈ cs, c.serial = e.serial) (room : cs.length < 24) : mergeEntry cs e = cs ++ [e.candidate] := by
  have hroom : cs.length < maxCandidates := room
  rw [mergeEntry, if_neg (any_serial_iff.not.2 h), if_pos hroom]

/-- At 24 candidates it takes the place of the weakest one, when it is stronger (R135). -/
theorem mergeEntry_full (h : ¬∃ c ∈ cs, c.serial = e.serial) (full : 24 ≤ cs.length) {out : Candidate}
    (hout : pickBest weaker cs = some out) : mergeEntry cs e =
      if out.toward < e.candidate.toward then cs.filter (fun c => c.serial ≠ out.serial) ++ [e.candidate] else cs := by
  have hfull : ¬cs.length < maxCandidates := Nat.not_lt.2 full
  rw [mergeEntry, if_neg (any_serial_iff.not.2 h), if_neg hfull, hout]

theorem weaker_iff (a b : Candidate) : weaker a b = true ↔
    a.toward < b.toward ∨ (a.toward = b.toward ∧ b.serial.toNat < a.serial.toNat) := by simp [weaker]

theorem weaker_asymm {a b : Candidate} (h : weaker a b = true) : weaker b a = false := by
  rw [← Bool.not_eq_true, weaker_iff]
  rw [weaker_iff] at h
  omega

/-- The candidate that is weaker than every other one is the one picked. -/
theorem pickBest_weaker {out : Candidate} (hout : out ∈ cs) (h : ∀ c ∈ cs, c ≠ out →
    out.toward < c.toward ∨ (out.toward = c.toward ∧ c.serial.toNat < out.serial.toNat)) : pickBest weaker cs = some out :=
  pickBest_eq hout fun c hc hne => by
    have hweaker := (weaker_iff out c).2 (h c hc hne)
    exact ⟨hweaker, weaker_asymm hweaker⟩

/-- The toward-sum of a new candidate is what the partner reports. -/
theorem EvidenceEntry.candidate_toward (e : EvidenceEntry) : e.candidate.toward = e.west.toNat := Nat.zero_add _

end Merge

/-! ### The records kept (R127, R131) -/

section Order

variable {α : Type} {before : α → α → Bool}

/-- The first `n` of a list in strict order are those that fewer than `n` go before. -/
theorem mem_take_iff (asymm : ∀ a b, before a b = true → before b a = false) (r : α) : ∀ (n : Nat) {l : List α},
    l.Pairwise (fun a b => before a b = true) →
      (r ∈ l.take n ↔ r ∈ l ∧ (l.filter (fun x => before x r)).length < n)
  | 0, l, _ => by simp
  | n + 1, [], _ => by simp
  | n + 1, x :: l, h => by
    obtain ⟨hx, hl⟩ := List.pairwise_cons.1 h
    have hself : before x x = false := by
      by_contra hxx
      rw [Bool.not_eq_false] at hxx
      exact Bool.false_ne_true ((asymm x x hxx).symm.trans hxx)
    rw [List.take_succ_cons, List.mem_cons, List.mem_cons, mem_take_iff asymm r n hl]
    by_cases hrx : r = x
    · subst hrx
      have hnone : (r :: l).filter (fun y => before y r) = [] := List.filter_eq_nil_iff.2 fun y hy => by
        obtain rfl | hy := List.mem_cons.1 hy
        · simp [hself]
        · simp [asymm r y (hx y hy)]
      simp [hnone]
    · simp only [hrx, false_or]
      refine and_congr_right fun hr => ?_
      rw [List.filter_cons_of_pos (p := fun y => before y r) (hx r hr), List.length_cons, Nat.add_lt_add_iff_right]

end Order

/-- The order in which records are kept: the larger first, the lower serial between equals. -/
def largerFirst (key : Record → Nat) (a b : Record) : Bool := key b < key a || (key a == key b && a.serial.toNat < b.serial.toNat)

theorem largerFirst_iff (key : Record → Nat) (a b : Record) : largerFirst key a b = true ↔
    key b < key a ∨ (key a = key b ∧ a.serial.toNat < b.serial.toNat) := by simp [largerFirst]

theorem largerFirst_trans (key : Record → Nat) (a b c : Record) (h : largerFirst key a b = true)
    (k : largerFirst key b c = true) : largerFirst key a c = true := by
  rw [largerFirst_iff] at *
  omega

theorem largerFirst_asymm (key : Record → Nat) (a b : Record) (h : largerFirst key a b = true) :
    largerFirst key b a = false := by
  rw [← Bool.not_eq_true, largerFirst_iff]
  rw [largerFirst_iff] at h
  omega

theorem largerFirst_irrefl (key : Record → Nat) (a : Record) : largerFirst key a a = false := by simp [largerFirst]

/-- Of two records with different serials one goes first. -/
theorem largerFirst_total (key : Record → Nat) {a b : Record} (h : a.serial.toNat < b.serial.toNat) :
    largerFirst key a b = true ∨ largerFirst key b a = true := by
  rw [largerFirst_iff, largerFirst_iff]
  omega

section Keep

variable (key : Record → Nat) {n : Nat} {l : List Record}

theorem keepLargest_all (h : l.length ≤ n) : keepLargest key n l = l := if_pos h

theorem keepLargest_some (h : ¬l.length ≤ n) :
    keepLargest key n l = sortBy (fun a b => a.serial.toNat < b.serial.toNat) ((sortBy (largerFirst key) l).take n) := if_neg h

theorem keepLargest_length_eq (n : Nat) (l : List Record) : (keepLargest key n l).length = min n l.length := by
  by_cases h : l.length ≤ n
  · rw [keepLargest_all key h, Nat.min_eq_right h]
  · rw [keepLargest_some key h, sortBy_length, List.length_take, sortBy_length]

/-- The records kept are in order of serial (R131). -/
theorem keepLargest_order (n : Nat) (hl : l.Pairwise (fun a b => a.serial.toNat < b.serial.toNat)) :
    (keepLargest key n l).Pairwise (fun a b => a.serial.toNat < b.serial.toNat) := by
  by_cases h : l.length ≤ n
  · rwa [keepLargest_all key h]
  · have hdistinct : l.Pairwise (fun a b => a.serial.toNat ≠ b.serial.toNat) := hl.imp Nat.ne_of_lt
    have hbest : ((sortBy (largerFirst key) l).take n).Pairwise (fun a b => a.serial.toNat ≠ b.serial.toNat) :=
      (keys_perm hdistinct (sortBy_perm _ l)).sublist (List.take_sublist n _)
    have hsorted := sortBy_pairwise (before := fun a b : Record => decide (a.serial.toNat < b.serial.toNat))
      (fun a b c hab hbc => by rw [decide_eq_true_eq] at *; exact Nat.lt_trans hab hbc)
      (hbest.imp fun {a b} hab => by simpa only [decide_eq_true_eq] using Nat.lt_or_gt_of_ne hab)
    rw [keepLargest_some key h]
    simpa only [decide_eq_true_eq] using hsorted

/-- A record is kept when fewer than `n` go before it (R127, R131). -/
theorem mem_keepLargest (n : Nat) (hl : l.Pairwise (fun a b => a.serial.toNat < b.serial.toNat)) (r : Record) :
    r ∈ keepLargest key n l ↔ r ∈ l ∧ (l.filter (fun x => largerFirst key x r)).length < n := by
  by_cases h : l.length ≤ n
  · rw [keepLargest_all key h]
    exact (and_iff_left_of_imp fun hr =>
      Nat.lt_of_lt_of_le (filter_length_lt_of_mem (p := fun x => largerFirst key x r) hr (largerFirst_irrefl key r)) h).symm
  · have hsorted := sortBy_pairwise (largerFirst_trans key) (hl.imp (largerFirst_total key))
    rw [keepLargest_some key h, mem_sortBy, mem_take_iff (largerFirst_asymm key) r n hsorted, mem_sortBy,
      ((sortBy_perm (largerFirst key) l).filter _).length_eq]

end Keep

end Sys2Proof.Machine
end

section
/-! CERTIFICATE. RECEIVE_EVIDENCE and EVIDENCE_DEADLINE: the part that is merged, and the adjudications that are weighed (R127, R130, R131,
R133 to R136, R141, R142). -/

namespace Sys2Proof.Machine

/-! ### The list -/

/-- The only element that `p` picks is the one found. -/
theorem find_only {α : Type} {p : α → Bool} {l : List α} {a : α} (ha : a ∈ l) (hp : p a = true)
    (only : ∀ x ∈ l, p x = true → x = a) : l.find? p = some a := by
  obtain ⟨x, hx⟩ := Option.isSome_iff_exists.1 (List.find?_isSome.2 ⟨a, ha, hp⟩)
  rw [hx, only x (List.mem_of_find?_eq_some hx) (List.find?_some hx)]

theorem replaceAdj_absent {l : List Adjudication} {m : Adjudication} (h : ∀ b ∈ l, b.callId ≠ m.callId) : replaceAdj m l = l :=
  (List.map_congr_left fun b hb => if_neg (h b hb)).trans (List.map_id' l)

/-- An adjudication of the list is replaced where no other one has its call id. -/
theorem replaceAdj_split {pre post : List Adjudication} {a m : Adjudication} (hid : a.callId = m.callId)
    (h : ∀ b ∈ pre ++ post, b.callId ≠ m.callId) : replaceAdj m (pre ++ a :: post) = pre ++ m :: post := by
  have hpre : replaceAdj m pre = pre := replaceAdj_absent fun b hb => h b (List.mem_append_left _ hb)
  have hpost : replaceAdj m post = post := replaceAdj_absent fun b hb => h b (List.mem_append_right _ hb)
  rw [replaceAdj] at hpre hpost ⊢
  rw [List.map_append, List.map_cons, hpre, hpost, if_pos hid]

/-- An adjudication that `p` does not pick any more is as good as gone. -/
theorem filter_replaceAdj {p : Adjudication → Bool} {w : Adjudication} (h : p w = false) (l : List Adjudication) :
    (replaceAdj w l).filter p = (removeAdj w.callId l).filter p := by
  induction l with
  | nil => rfl
  | cons b l ih =>
    unfold replaceAdj removeAdj at *
    by_cases hb : b.callId = w.callId
    · simp [hb, h, ih]
    · by_cases hp : p b = true <;> simp [hb, hp, ih]

/-! ### EVIDENCE_DEADLINE -/

/-- COLLECTING with a deadline that has reached 0 (R130). -/
def Adjudication.overdue (x : Adjudication) : Bool := x.state == .collecting && x.deadline == some 0

/-- EVIDENCE_DEADLINE told by the adjudications that are due (R130, R136). -/
theorem exec_evidenceDeadline_eq {s : State} {ties : Ties} {due : List Adjudication}
    (h : s.adj.list.filter Adjudication.overdue = due) :
    exec (.evidenceDeadline ties) s =
      .next (((due.map Adjudication.callId).foldl (State.weighId ties) s).finishOffers ties) := by
  subst h
  rfl

/-- Weighing an adjudication of the list, with room for its VERDICT: of the line only the queue moves. -/
theorem State.weighListed_effect {s : State} {a : Adjudication} (room : s.HasRoom 3) (few : a.candidates.length ≤ 24)
    (ties : Ties) : SameBut s [.line, .adj, .sightings] (s.weighListed ties a) ∧
      (s.weighListed ties a).line = { s.line with queue := (s.weighListed ties a).line.queue } ∧
      WeighedTo s ties (s.scales.weigh a) (s.weighListed ties a) := by
  obtain ⟨hweighed, hquiet⟩ := State.weighListed_room room few ties
  have hline : (s.weighListed ties a).line = { s.line with
      queue := (s.weighListed ties a).line.queue, dropped := (s.weighListed ties a).line.dropped } := s.weighListed_line ties a
  refine ⟨s.weighListed_frame ties a, ?_, hweighed⟩
  rw [hquiet, ← room.quiet] at hline
  exact hline

/-- The adjudication of a call id is weighed when it is the only COLLECTING one of that id (R130). -/
theorem State.weighId_only {s : State} {a : Adjudication} (ha : a ∈ s.adj.list) (hstate : a.state = .collecting)
    (only : ∀ x ∈ s.adj.list, x.callId = a.callId → x = a) (ties : Ties) :
    State.weighId ties s a.callId = s.weighListed ties a := by
  have hfind : s.adj.list.find? (fun x => x.callId == a.callId && x.state == .collecting) = some a :=
    find_only ha (by simp [hstate]) fun x hx hp =>
      only x hx (beq_iff_eq.1 (Bool.and_eq_true_iff.1 hp).1)
  rw [State.weighId, hfind]

/-- The first one due is weighed, and then the others (R136). -/
theorem exec_evidenceDeadline_first {s : State} {ties : Ties} {a : Adjudication} {rest : List Adjudication}
    (h : s.adj.list.filter Adjudication.overdue = a :: rest) (only : ∀ x ∈ s.adj.list, x.callId = a.callId → x = a) :
    exec (.evidenceDeadline ties) s =
      .next (((rest.map Adjudication.callId).foldl (State.weighId ties) (s.weighListed ties a)).finishOffers ties) := by
  obtain ⟨ha, hoverdue⟩ := List.mem_filter.1 (h ▸ List.mem_cons_self : a ∈ s.adj.list.filter Adjudication.overdue)
  have hstate : a.state = .collecting := beq_iff_eq.1 (Bool.and_eq_true_iff.1 hoverdue).1
  rw [exec_evidenceDeadline_eq h, List.map_cons, List.foldl_cons, State.weighId_only ha hstate only ties]

/-- One weighed, the others that were due are due (R136). -/
theorem State.weighListed_overdue {s : State} {ties : Ties} {a : Adjudication} {rest : List Adjudication}
    (h : s.adj.list.filter Adjudication.overdue = a :: rest) (hids : s.adj.list.Pairwise (fun x y => x.callId ≠ y.callId))
    (hweighed : WeighedTo s ties (s.scales.weigh a) (s.weighListed ties a)) :
    (s.weighListed ties a).adj.list.filter Adjudication.overdue = rest := by
  have hleft := filter_removeAdj h hids
  by_cases hnone : (s.scales.weigh a).attributed = []
  · rw [(hweighed.ended hnone).1]
    exact hleft
  · rw [(hweighed.given hnone).1]
    exact (filter_replaceAdj rfl s.adj.list).trans hleft

/-! ### RECEIVE_EVIDENCE -/

/-- The partner evidence is FINAL once the parts up to a final one are held (R133). -/
theorem evidenceAfter_eq (parts : List (BitVec 4)) (part : BitVec 4) (final : Bool) : evidenceAfter parts part final =
    if final = true ∧ ∀ i, i ≤ part.toNat → BitVec.ofNat 4 i ∈ parts then .final else .incomplete := by
  have hheld : (final && (List.range (part.toNat + 1)).all (fun i => parts.contains (BitVec.ofNat 4 i))) = true ↔
      final = true ∧ ∀ i, i ≤ part.toNat → BitVec.ofNat 4 i ∈ parts := by
    simp only [Bool.and_eq_true, List.all_eq_true, List.mem_range, Nat.lt_succ_iff, List.contains_iff_mem]
  simp only [evidenceAfter, hheld]

/-- Which adjudications a part may be merged into (R133, R136). -/
theorem awaits_iff (id : Byte) (part : BitVec 4) (x : Adjudication) :
    (x.callId == id && x.state == .collecting && x.deadline != some 0 && !x.parts.contains part) = true ↔
      x.callId = id ∧ x.state = .collecting ∧ x.deadline ≠ some 0 ∧ part ∉ x.parts := by
  simp [and_assoc]

theorem State.collectingFor_some {s : State} {id : Byte} {part : BitVec 4} {a : Adjudication} (ha : a ∈ s.adj.list)
    (hawaits : a.callId = id ∧ a.state = .collecting ∧ a.deadline ≠ some 0 ∧ part ∉ a.parts)
    (only : ∀ x ∈ s.adj.list, x.callId = id → x = a) : s.collectingFor id part = some a :=
  find_only ha ((awaits_iff id part a).2 hawaits) fun x hx hp => only x hx ((awaits_iff id part x).1 hp).1

theorem State.collectingFor_none {s : State} {id : Byte} {part : BitVec 4} (h : ∀ x ∈ s.adj.list,
    ¬(x.callId = id ∧ x.state = .collecting ∧ x.deadline ≠ some 0 ∧ part ∉ x.parts)) : s.collectingFor id part = none :=
  List.find?_eq_none.2 fun x hx => (awaits_iff id part x).not.2 (h x hx)

section Heard

variable {s : State} {p : Nat} {id : Byte} {part : BitVec 4} {final : Bool} {es : List EvidenceEntry}

theorem State.withList_scales (s : State) (l : List Adjudication) : (s.withList l).scales = { s.scales with others := l } := rfl

/-- Hearing a notice changes nothing that a weighing reads. -/
theorem State.takeOther_scales (h : p ≠ s.position) : (s.takeOther p).scales = s.scales := by
  have hface : (s.dropAssembly.hearStation p).neighbours.east.westFault = s.neighbours.east.westFault := by
    change EastRecord.westFault (if s.dropAssembly.fromEast p = true then s.neighbours.east.heard else s.neighbours.east) = _
    split <;> rfl
  rw [State.takeOther_eq h, State.scales, hface]
  rfl

/-- What is weighed after a notice was heard is weighed in the state before. -/
theorem WeighedTo.of_heard (hp : p ≠ s.position) {l : List Adjudication} {ties : Ties} {m : Adjudication} {t : State}
    (h : WeighedTo ((s.takeOther p).withList l) ties (((s.takeOther p).withList l).scales.weigh m) t) :
    WeighedTo (s.withList l) ties ((s.withList l).scales.weigh m) t := by
  have hscales : ((s.takeOther p).withList l).scales = (s.withList l).scales := by
    rw [State.withList_scales, State.withList_scales, State.takeOther_scales hp]
  rw [hscales, State.takeOther_eq hp] at h
  exact ⟨h.ended, h.given⟩

theorem State.HasRoom.withList {n : Nat} (room : s.HasRoom n) (l : List Adjudication) : (s.withList l).HasRoom n :=
  ⟨room.awake, room.fits, room.quiet⟩

/-- An EVIDENCE part from another position is heard, and taken when it is the partner's (R133). -/
theorem exec_receiveEvidence_eq (h : s.incoming = some (p, .evidence id part final es)) (hp : p ≠ s.position) :
    exec .receiveEvidence s = .next (if p = s.position + 1 then
      ((s.takeOther p).takeEvidence id part final es).finishOffers .none else s.takeOther p) := by
  have hposition : (s.takeOther p).position = s.position := by
    rw [State.takeOther_eq hp]
    rfl
  change execReceiveEvidence s = _
  simp only [execReceiveEvidence, h, hposition]

/-- A part that an adjudication of the list lacks is merged there, and a final one leads to its weighing (R133, R136). -/
theorem State.takeEvidence_merged {t : State} {pre post : List Adjudication} {a : Adjudication}
    (hlist : t.adj.list = pre ++ a :: post) (hothers : ∀ x ∈ pre ++ post, x.callId ≠ id)
    (hawaits : a.callId = id ∧ a.state = .collecting ∧ a.deadline ≠ some 0 ∧ part ∉ a.parts) :
    t.takeEvidence id part final es = if final = true then
        (t.withList (pre ++ a.mergePart part final es :: post)).weighListed .none (a.mergePart part final es)
      else t.withList (pre ++ a.mergePart part final es :: post) := by
  have hid : a.callId = id := hawaits.1
  have honly : ∀ x ∈ t.adj.list, x.callId = id → x = a := by
    intro x hx hxid
    rw [hlist, List.mem_append, List.mem_cons, or_left_comm, ← List.mem_append] at hx
    exact hx.resolve_right fun hother => hothers x hother hxid
  have hcollecting : t.collectingFor id part = some a :=
    State.collectingFor_some (by rw [hlist]; exact List.mem_append_cons_self) hawaits honly
  have hreplaced : replaceAdj (a.mergePart part final es) t.adj.list = pre ++ a.mergePart part final es :: post := by
    rw [hlist]
    exact replaceAdj_split rfl (by rw [← hid] at hothers; exact hothers)
  rw [State.takeEvidence, hcollecting]
  dsimp only
  rw [hreplaced]

/-- The partner's part for an adjudication of the list (R133, R136): with room for a VERDICT no report is left to take. -/
theorem exec_receiveEvidence_merged {pre post : List Adjudication} {a m : Adjudication} (hm : a.mergePart part final es = m)
    (h : s.incoming = some (s.position + 1, .evidence id part final es)) (room : s.HasRoom 3)
    (hlist : s.adj.list = pre ++ a :: post) (hothers : ∀ x ∈ pre ++ post, x.callId ≠ id)
    (hawaits : a.callId = id ∧ a.state = .collecting ∧ a.deadline ≠ some 0 ∧ part ∉ a.parts) (few : m.candidates.length ≤ 24) :
    exec .receiveEvidence s = .next (if final = true then
        ((s.takeOther (s.position + 1)).withList (pre ++ m :: post)).weighListed .none m
      else (s.takeOther (s.position + 1)).withList (pre ++ m :: post)) := by
  have hp : s.position + 1 ≠ s.position := Nat.succ_ne_self _
  have hadj : (s.takeOther (s.position + 1)).adj = s.adj := (State.takeOther_other_frame hp).blocks .adj (by decide)
  have hroom := (room.takeOther hp).withList (pre ++ m :: post)
  rw [exec_receiveEvidence_eq h hp, if_pos rfl, State.takeEvidence_merged (by rw [hadj, hlist]) hothers hawaits, hm]
  refine congrArg _ (State.finishOffers_none .none ?_)
  cases final with
  | false => exact hroom.quiet
  | true => exact (State.weighListed_room hroom few .none).2

/-- A part that no adjudication awaits, or that is not the partner's, is heard only (R133). -/
theorem exec_receiveEvidence_ignored (h : s.incoming = some (p, .evidence id part final es)) (hp : p ≠ s.position)
    (hquiet : s.line.dropped = []) (hnone : p ≠ s.position + 1 ∨ s.collectingFor id part = none) :
    exec .receiveEvidence s = .next (s.takeOther p) := by
  rw [exec_receiveEvidence_eq h hp]
  by_cases hpartner : p = s.position + 1
  · have hadj : (s.takeOther p).adj = s.adj := (State.takeOther_other_frame hp).blocks .adj (by decide)
    have hcollecting : (s.takeOther p).collectingFor id part = none := by
      rw [State.collectingFor, hadj]
      exact hnone.resolve_left (not_not_intro hpartner)
    have htaken : (s.takeOther p).takeEvidence id part final es = s.takeOther p := by rw [State.takeEvidence, hcollecting]
    rw [if_pos hpartner, htaken, State.finishOffers_none .none (by rw [State.takeOther_line hp]; exact hquiet)]
  · rw [if_neg hpartner]

end Heard

/-! ### The statement -/

/-- The merging of one entry, clause by clause (R134, R135). -/
theorem mergeEntry_cases {cs : List Candidate} (e : EvidenceEntry) (hcs : cs.Pairwise (fun b c => b.serial ≠ c.serial)) :
    ((∃ c ∈ cs, c.serial = e.serial) → mergeEntry cs e = cs.map (fun c => if c.serial = e.serial then c.merge e else c)) ∧
    ((∀ c ∈ cs, c.serial ≠ e.serial) → cs.length < 24 → mergeEntry cs e = cs ++ [e.candidate]) ∧
    ((∀ c ∈ cs, c.serial ≠ e.serial) → 24 ≤ cs.length → ∀ out ∈ cs,
      (∀ c ∈ cs, c ≠ out → out.toward < c.toward ∨ (out.toward = c.toward ∧ c.serial.toNat < out.serial.toNat)) →
      (out.toward < e.west.toNat → ∀ c, c ∈ mergeEntry cs e ↔ c = e.candidate ∨ (c ∈ cs ∧ c ≠ out)) ∧
      (e.west.toNat ≤ out.toward → mergeEntry cs e = cs)) := by
  have hnew : (∀ c ∈ cs, c.serial ≠ e.serial) → ¬∃ c ∈ cs, c.serial = e.serial := fun h ⟨c, hc, hserial⟩ => h c hc hserial
  refine ⟨mergeEntry_known, fun h => mergeEntry_room (hnew h), fun h hfull out hout hweakest => ?_⟩
  rw [mergeEntry_full (hnew h) hfull (pickBest_weaker hout hweakest), EvidenceEntry.candidate_toward]
  refine ⟨fun hless c => ?_, fun hmore => if_neg (Nat.not_lt.2 hmore)⟩
  rw [if_pos hless, List.mem_append, List.mem_filter, List.mem_singleton, or_comm, decide_eq_true_eq]
  exact or_congr_right (and_congr_right fun hc => not_congr ⟨eq_of_key hcs hc hout, congrArg Candidate.serial⟩)

/-- Settles O52: a part is merged and weighed by the operations on the list, and the deadlines by the weighing of the first one due. -/
theorem evidenceAndDeadlineWeigh : Obligations.EvidenceAndDeadlineWeigh := by
  unfold Obligations.EvidenceAndDeadlineWeigh
  refine ⟨?received, ?ignored, ?several, ?one, fun cs e new hcs hnew => ?merged,
    fun key n l hl => ⟨keepLargest_order key n hl, keepLargest_length_eq key n l, mem_keepLargest key n hl⟩⟩
  case received =>
    intro s id part final es pre post a m hincoming room hlist hothers hid hstate hdeadline hpart few hm
    have hp : s.position + 1 ≠ s.position := Nat.succ_ne_self _
    have hmerge : a.mergePart part final es = m := by
      rw [hm, ← evidenceAfter_eq]
      rfl
    have hcandidates : m.candidates.length ≤ 24 := by
      rw [hm]
      exact mergeAll_length es few
    have hheard := State.takeOther_other_frame hp
    have hadj : (s.takeOther (s.position + 1)).adj = s.adj := hheard.blocks .adj (by decide)
    have hlisted := hheard.then (State.withList_frame _ (pre ++ m :: post)) (ds := [.cadence, .line, .neighbours, .adj]) (by simp)
      (by simp)
    have hexec := exec_receiveEvidence_merged hmerge hincoming room hlist hothers ⟨hid, hstate, hdeadline, hpart⟩ hcandidates
    cases final with
    | false =>
      refine ⟨_, hexec, hlisted.mono (by decide), fun _ => ⟨hlisted, State.takeOther_line hp, ?_⟩,
        fun h => absurd h Bool.false_ne_true⟩
      exact congrArg (fun x : Adjudicator => { x with list := pre ++ m :: post }) hadj
    | true =>
      obtain ⟨hframe, -, hweighed⟩ := State.weighListed_effect ((room.takeOther hp).withList (pre ++ m :: post)) hcandidates .none
      exact ⟨_, hexec, hlisted.then hframe (by decide) (by decide), fun h => absurd h.symm Bool.false_ne_true,
        fun _ => hweighed.of_heard hp⟩
  case ignored =>
    intro s p id part final es hincoming hp hquiet hnone
    exact ⟨_, exec_receiveEvidence_ignored hincoming hp hquiet (hnone.imp_right State.collectingFor_none),
      State.takeOther_other_frame hp, State.takeOther_line hp⟩
  case several =>
    intro s ties due hdue
    refine ⟨fun hnone hquiet => ?_, fun a rest hfirst room few hids => ?_⟩
    · rw [exec_evidenceDeadline_eq (hdue.symm.trans hnone)]
      exact congrArg _ (State.finishOffers_none ties hquiet)
    · have hfilter : s.adj.list.filter Adjudication.overdue = a :: rest := hdue.symm.trans hfirst
      have ha : a ∈ s.adj.list := List.mem_of_mem_filter (hfilter ▸ List.mem_cons_self : a ∈ s.adj.list.filter Adjudication.overdue)
      obtain ⟨hframe, hline, hweighed⟩ := State.weighListed_effect room few ties
      refine ⟨s.weighListed ties a, ?_, hframe, hline, hweighed⟩
      rw [exec_evidenceDeadline_first hfilter (fun x hx hid => eq_of_key hids hx ha hid),
        exec_evidenceDeadline_eq (State.weighListed_overdue hfilter hids hweighed)]
  case one =>
    intro s ties a room few hone honly
    obtain ⟨hframe, hline, hweighed⟩ := State.weighListed_effect room few ties
    have hquiet : (s.weighListed ties a).line.dropped = [] := by rw [hline]; exact room.quiet
    exact ⟨_, (exec_evidenceDeadline_first hone honly).trans (congrArg _ (State.finishOffers_none ties hquiet)), hframe, hweighed⟩
  case merged =>
    subst hnew
    exact mergeEntry_cases e hcs

end Sys2Proof.Machine
end

section
/-! CERTIFICATE. RECEIVE_SETTLEMENT: what an entry of a SETTLEMENT does to the carried-in list, and the entries applied in their order (R153
to R155). -/

namespace Sys2Proof.Machine

/-! ### The entry that goes first (R154) -/

theorem leastGrace_iff (a b : CarriedEntry) : leastGrace a b = true ↔
    a.grace < b.grace ∨ (a.grace = b.grace ∧ a.serial.toNat < b.serial.toNat) := by simp [leastGrace]

theorem leastGrace_asymm {a b : CarriedEntry} (h : leastGrace a b = true) : leastGrace b a = false := by
  rw [← Bool.not_eq_true, leastGrace_iff]
  rw [leastGrace_iff] at h
  omega

/-- The entry that goes before every other one is the one picked. -/
theorem pickBest_leastGrace {l : List CarriedEntry} {out : CarriedEntry} (hout : out ∈ l) (h : ∀ x ∈ l, x ≠ out →
    out.grace < x.grace ∨ (out.grace = x.grace ∧ out.serial.toNat < x.serial.toNat)) : pickBest leastGrace l = some out :=
  pickBest_eq hout fun x hx hne => by
    have hfirst := (leastGrace_iff out x).2 (h x hx hne)
    exact ⟨hfirst, leastGrace_asymm hfirst⟩

/-! ### A serial carried in (R153, R154) -/

section Carry

variable {l : List CarriedEntry} {serial : Serial} {grace : Nat}

theorem any_carried_iff : l.any (fun x => x.serial == serial) = true ↔ ∃ x ∈ l, x.serial = serial := by
  simp only [List.any_eq_true, beq_iff_eq]

theorem any_carried_of_fresh (fresh : ∀ x ∈ l, x.serial ≠ serial) : ¬l.any (fun x => x.serial == serial) = true :=
  any_carried_iff.not.2 fun ⟨x, hx, hserial⟩ => fresh x hx hserial

/-- A serial held has its grace restored (R154): its entry stands with the new grace, and the others stay. -/
theorem mem_carryIn_held (held : ∃ x ∈ l, x.serial = serial) (x : CarriedEntry) :
    x ∈ carryIn grace serial l ↔ x = ⟨serial, grace⟩ ∨ (x ∈ l ∧ x.serial ≠ serial) := by
  rw [carryIn, if_pos (any_carried_iff.2 held), List.mem_map]
  constructor
  · rintro ⟨y, hy, rfl⟩
    by_cases hserial : y.serial = serial
    · exact .inl (by rw [if_pos hserial, hserial])
    · rw [if_neg hserial]
      exact .inr ⟨hy, hserial⟩
  · rintro (rfl | ⟨hx, hother⟩)
    · obtain ⟨y, hy, hserial⟩ := held
      exact ⟨y, hy, by rw [if_pos hserial, hserial]⟩
    · exact ⟨x, hx, if_neg hother⟩

/-- A new serial joins at the end while there is room (R154). -/
theorem carryIn_room (fresh : ∀ x ∈ l, x.serial ≠ serial) (room : l.length < 32) :
    carryIn grace serial l = l ++ [⟨serial, grace⟩] := by
  have hroom : l.length < maxCarried := room
  rw [carryIn, if_neg (any_carried_of_fresh fresh), if_pos hroom]

/-- At 32 entries a new serial takes the place of the entry that goes first (R154). -/
theorem carryIn_full (fresh : ∀ x ∈ l, x.serial ≠ serial) (full : 32 ≤ l.length) {out : CarriedEntry}
    (hout : pickBest leastGrace l = some out) :
    carryIn grace serial l = l.filter (fun x => x.serial ≠ out.serial) ++ [⟨serial, grace⟩] := by
  have hfull : ¬l.length < maxCarried := Nat.not_lt.2 full
  rw [carryIn, if_neg (any_carried_of_fresh fresh), if_neg hfull, hout]

/-- With distinct serials, the entry that goes first is the only one that leaves. -/
theorem mem_carryIn_full (hl : CarriedDistinct l) (fresh : ∀ x ∈ l, x.serial ≠ serial) (full : 32 ≤ l.length)
    {out : CarriedEntry} (hout : out ∈ l) (hfirst : pickBest leastGrace l = some out) (x : CarriedEntry) :
    x ∈ carryIn grace serial l ↔ x = ⟨serial, grace⟩ ∨ (x ∈ l ∧ x ≠ out) := by
  rw [carryIn_full fresh full hfirst, List.mem_append, List.mem_filter, List.mem_singleton, or_comm, decide_eq_true_eq]
  exact or_congr_right (and_congr_right fun hx => not_congr ⟨eq_of_key hl hx hout, congrArg CarriedEntry.serial⟩)

end Carry

/-! ### One entry of a SETTLEMENT (R153, R155) -/

section Settled

variable {grace : Nat} {l : List CarriedEntry} {e : SettledEntry}

theorem applySettled_carriedIn (h : e.kind = .carriedIn) : applySettled grace l e = carryIn grace e.serial l := by
  rw [applySettled, h]

theorem applySettled_turnback (h : e.kind = .turnback) : applySettled grace l e = l.filter (fun x => x.serial ≠ e.serial) := by
  rw [applySettled, h]

theorem applySettled_other (h : e.kind = .pass ∨ e.kind = .alarm ∨ e.kind = .repeated) : applySettled grace l e = l := by
  obtain h | h | h := h <;> rw [applySettled, h]

end Settled

/-! ### The command -/

section Command

variable {s : State} {p : Nat}

theorem State.takeOther_settings (h : p ≠ s.position) : (s.takeOther p).settings = s.settings := by
  rw [State.takeOther_eq h]
  rfl

/-- A SETTLEMENT from another position is heard, and its entries are applied with the own grace setting (R153). -/
theorem exec_receiveSettlement_eq {id lane : Byte} {part : BitVec 4} {final : Bool} {es : List SettledEntry}
    (h : s.incoming = some (p, .settlement id lane part final es)) (hp : p ≠ s.position) :
    exec .receiveSettlement s = .next ((s.takeOther p).withCarried (applySettlement s.settings.grace es s.carried)) := by
  have hcarried : (s.takeOther p).carried = s.carried := (State.takeOther_other_frame hp).blocks .carried (by decide)
  change execReceiveSettlement s = _
  simp only [execReceiveSettlement, h, State.takeOther_settings hp, hcarried]

end Command

/-- Settles O56: the notice is heard as any other, and each kind of entry is its own operation on the carried-in list. -/
theorem settlementsHeard : Obligations.SettlementsHeard := by
  unfold Obligations.SettlementsHeard
  refine ⟨fun s p id lane part final es hincoming hp => ?heard, fun grace l e hl => ⟨applySettled_other, fun hkind x => ?turnback,
    fun hkind held => ?held, fun hkind fresh room => ?room, fun hkind fresh full out hout hfirst => ?full⟩⟩
  case heard =>
    exact ⟨_, exec_receiveSettlement_eq hincoming hp,
      (State.takeOther_other_frame hp).then (State.withCarried_frame _ _) (by simp) (by simp), State.takeOther_line hp, rfl⟩
  case turnback => rw [applySettled_turnback hkind, List.mem_filter, decide_eq_true_eq]
  case held =>
    rw [applySettled_carriedIn hkind]
    exact mem_carryIn_held held
  case room => rw [applySettled_carriedIn hkind, carryIn_room fresh room]
  case full =>
    rw [applySettled_carriedIn hkind]
    exact mem_carryIn_full hl fresh full hout (pickBest_leastGrace hout hfirst)

end Sys2Proof.Machine
end

section
/-! SUPPORT. Every command moves only the blocks of `mayChange`, taken from what each command leaves unchanged. -/

namespace Sys2Proof.Machine

theorem Moves.mono {bs cs : List Block} {c : Instr} {s : State} (h : Moves bs c s) (sub : bs ⊆ cs) : Moves cs c s := by
  obtain ⟨t, hexec, hframe⟩ := h
  exact ⟨t, hexec, hframe.mono sub⟩

theorem moves_mayChange (c : Instr) (s : State) : Moves (mayChange c) c s := by
  cases c with
  | powerOnReset => exact (exec_powerOnReset_moves s).mono (by decide)
  | serviceReset => exact (exec_serviceReset_moves s).mono (by decide)
  | resetEnd => exact exec_resetEnd_moves s
  | strapsSample p r => exact exec_strapsSample_moves s p r
  | configTransferComplete w b => exact exec_configTransferComplete_moves s w b
  | configNoResponse k => exact exec_configNoResponse_moves s k
  | supplyHold w => exact exec_supplyHold_moves s w
  | holdResume => exact exec_holdResume_moves s
  | listeningExpiry => exact exec_listeningExpiry_moves s
  | frameStart view => exact exec_frameStart_moves s view
  | markSend => exact exec_markSend_moves s
  | markAbandon => exact exec_markAbandon_moves s
  | breakReleaseTimeout => exact exec_breakReleaseTimeout_moves s
  | transmitWindowEnd => exact exec_transmitWindowEnd_moves s
  | slotEnd j w e x y => exact exec_slotEnd_moves s j w e x y
  | coilCheck w e => exact exec_coilCheck_moves s w e
  | recordFade x => exact exec_recordFade_moves s x
  | recordAgeFree => exact exec_recordAgeFree_moves s
  | strayMark => exact exec_strayMark_moves s
  | filterTick i o a k order => exact exec_filterTick_moves s i o a k order
  | beamStuck => exact exec_beamStuck_moves s
  | breakRecognized l => exact exec_breakRecognized_moves s l
  | quietEnd => exact exec_quietEnd_moves s
  | framingError l => exact exec_framingError_moves s l
  | receiverIdleTimeout => exact exec_receiverIdleTimeout_moves s
  | noticeStart => exact exec_noticeStart_moves s
  | collision b => exact exec_collision_moves s b
  | noticeSent => exact exec_noticeSent_moves s
  | noticeInvalid => exact (exec_noticeInvalid_moves s).mono (by decide)
  | receiveCadence => exact exec_receiveCadence_moves s
  | receiveStatus => exact exec_receiveStatus_moves s
  | receiveCall => exact exec_receiveCall_moves s
  | receiveEvidence => exact exec_receiveEvidence_moves s
  | evidenceDeadline x => exact exec_evidenceDeadline_moves s x
  | receiveVerdict => exact exec_receiveVerdict_moves s
  | holdExpiry x => exact exec_holdExpiry_moves s x
  | receiveSettlement => exact exec_receiveSettlement_moves s
  | receiveAlarm => exact exec_receiveAlarm_moves s
  | receiveAck => exact exec_receiveAck_moves s
  | receiveJournalCall => exact exec_receiveJournalCall_moves s
  | receiveJournal => exact exec_receiveJournal_moves s
  | neighbourAbsent => exact exec_neighbourAbsent_moves s
  | lineSilent => exact exec_lineSilent_moves s
  | clashClear => exact exec_clashClear_moves s
  | claimExpiry => exact exec_claimExpiry_moves s
  | carriedInExpiry => exact exec_carriedInExpiry_moves s
  | characterReceived w v k => exact (exec_characterReceived_moves s w v k).mono (by simp [mayChange])

end Sys2Proof.Machine
end

section
/-! CERTIFICATE. Every step keeps the alarm unit sound (R159, R173, R174): the works that reach it are a frame start, a settlement, a
change of the latch, an acknowledge, the answer to a JOURNAL CALL and the resets. -/

namespace Sys2Proof.Machine

/-! ### The works that reach the alarm unit -/

/-- Work that leaves the alarm unit alone keeps it sound. -/
theorem SameBut.alarm_sound {s t : State} {bs : List Block} (h : SameBut s bs t) (hb : .alarm ∉ bs) (hs : s.alarm.Sound) :
    t.alarm.Sound := by
  rwa [h.blocks .alarm hb]

/-- The alarm unit after a frame start: its journal is one frame older (R173). -/
def AlarmUnit.aged (a : AlarmUnit) : AlarmUnit := { a with journal := ageJournal a.journal }

section Cadence

variable (s : State)

theorem State.joinAt_alarm (n : BitVec 16) (off : Nat) (adopted : Bool) : (s.joinAt n off adopted).alarm = s.alarm.aged := by
  simp only [State.joinAt]
  split <;> simp [State.raiseRequest, AlarmUnit.aged]

theorem State.numberChanged_alarm : s.numberChanged.alarm = s.alarm := s.numberChanged_frame.blocks .alarm (by decide)

theorem State.phaseAction_alarm (b : PendingBreak) (n m : BitVec 16) (d : Byte) (e dd : Int) :
    (s.phaseAction b n m d e dd).alarm = s.alarm ∨ (s.phaseAction b n m d e dd).alarm = s.alarm.aged := by
  unfold State.phaseAction
  dsimp only
  split_ifs
  · exact .inl rfl
  · exact .inr (State.frameStartEvent_alarm _ _ _ _ _ _)
  · exact .inl rfl
  · exact .inl rfl
  · exact .inr (State.frameStartEvent_alarm _ _ _ _ _ _)

theorem State.judgeCadence_alarm (b : PendingBreak) (n : BitVec 16) (d : Byte) :
    (s.judgeCadence b n d).alarm = s.alarm ∨ (s.judgeCadence b n d).alarm = s.alarm.aged := by
  have hphase := State.phaseAction_alarm (s.withCadence { s.cadence with lastQualifying := some s.freeRun, selfLed := false })
    b n (ownNumber b (breakError b d)) d (breakError b d) (phaseOffset (breakError b d))
  unfold State.judgeCadence
  dsimp only
  split_ifs
  · exact hphase
  · rwa [State.numberChanged_alarm]
  · exact .inl rfl

theorem State.adoptListening_alarm (b : PendingBreak) (n : BitVec 16) (d : Byte) :
    (s.adoptListening b n d).alarm = s.alarm.aged := by
  unfold State.adoptListening
  dsimp only
  rw [State.joinAt_alarm]
  split_ifs
  · rfl
  · rw [State.numberChanged_alarm]
    rfl

/-- A CADENCE begins at most one frame 0, and so ages the journal at most once. -/
theorem State.hearCadence_alarm (n : BitVec 16) (d : Byte) :
    (s.hearCadence n d).alarm = s.alarm ∨ (s.hearCadence n d).alarm = s.alarm.aged := by
  unfold State.hearCadence
  split
  · exact .inr (s.adoptListening_alarm _ _ _)
  · exact s.dropBreak.judgeCadence_alarm _ _ _
  · exact .inl rfl

end Cadence

section Works

variable {s : State} (h : s.alarm.Sound)
include h

/-- Of an opening only a settlement that makes room, or that ends it at once, reaches the alarm unit (R128, R129). -/
theorem State.enterWeighed_sound (ties : Ties) (w : Adjudication) : (s.enterWeighed ties w).alarm.Sound := by
  unfold State.enterWeighed
  split_ifs
  · exact h
  · split
    · exact State.settle_sound ((s.withList_frame _).alarm_sound (by decide) h) _ _
    · exact State.settle_sound h _ _

theorem State.openAdjudication_sound (ties : Ties) (t : Trigger) (d : Direction) (a b : Stamp) :
    (s.openAdjudication ties t d a b).alarm.Sound := by
  unfold State.openAdjudication
  dsimp only
  split_ifs
  · exact h
  · refine (State.finishOffers_frame _ _).alarm_sound (by decide) ?_
    unfold State.weighNew
    dsimp only
    split_ifs
    · exact h
    · refine State.enterWeighed_sound ?_ _ _
      exact (State.giveVerdict_frame _ _ _).alarm_sound (by decide) h
  · refine (State.finishOffers_frame _ _).alarm_sound (by decide) ?_
    exact (State.callPartner_frame _ _).alarm_sound (by decide) h

theorem State.takePassage_sound (c : Option Completed) : (s.takePassage c).alarm.Sound := by
  unfold State.takePassage
  split
  · split_ifs
    · exact State.openAdjudication_sound h _ _ _ _ _
    · exact h
  · exact h

theorem State.takeClear_sound (entered : Bool) : (s.takeClear entered).alarm.Sound := by
  unfold State.takeClear
  split_ifs
  · exact State.returnToClear_sound h
  · exact h

theorem State.keyToAck_sound : s.keyToAck.alarm.Sound := by
  have hack := State.acknowledge_sound h
  unfold State.keyToAck
  split_ifs
  · exact (State.offer_frame _ _).alarm_sound (by decide) hack
  · exact hack

/-- Of the staff key only the movement into ACK reaches the alarm unit (R162, R182). -/
theorem State.sampleKey_sound (raw : Option KeyPosition) : (s.sampleKey raw).alarm.Sound := by
  unfold State.sampleKey
  split_ifs
  · unfold State.nextKey
    split
    · exact h
    · split_ifs
      · exact h
      · refine (State.keyRequest_frame _ _ _).alarm_sound (by decide) ?_
        split_ifs
        · exact State.keyToAck_sound (s := s.withStartup _) h
        · exact h
      · exact h
  · unfold State.firstKey
    dsimp only
    split_ifs <;> exact h
  · exact h

theorem State.keyAt_sound (place now : KeyPlace) (raw : Option KeyPosition) : (s.keyAt place now raw).alarm.Sound := by
  unfold State.keyAt
  split_ifs
  · exact State.sampleKey_sound h raw
  · exact h

theorem State.takeLaneEvent_sound (ev : LaneEvent) (order : TickOrder) (raw : Option KeyPosition) :
    (s.takeLaneEvent ev order raw).alarm.Sound := by
  unfold State.takeLaneEvent
  split_ifs
  · exact State.takePassage_sound (State.keyAt_sound (State.takeClear_sound h _) _ _ _) _
  · exact State.takeClear_sound (State.keyAt_sound (State.takePassage_sound h _) _ _ _) _

theorem State.sampleInputs_sound (i o : Bool) (order : TickOrder) (raw : Option KeyPosition) :
    (s.sampleInputs i o order raw).alarm.Sound := by
  refine State.keyAt_sound (State.takeLaneEvent_sound ?_ _ _ _) _ _ _
  exact (State.withLane_frame _ _).alarm_sound (by decide) (State.keyAt_sound h _ _ _)

theorem State.hearCadence_sound (n : BitVec 16) (d : Byte) : (s.hearCadence n d).alarm.Sound := by
  obtain heq | heq := s.hearCadence_alarm n d <;> rw [heq]
  · exact h
  · exact ageJournal_sound h

end Works

/-! ### The commands -/

/-- The command answers a next state whose alarm unit is sound. -/
def LandsAlarmSound (c : Instr) (s : State) : Prop := ∃ t, exec c s = .next t ∧ t.alarm.Sound

section Commands

variable {s : State} (h : s.alarm.Sound)
include h

/-- A command that does not reach the alarm unit. -/
theorem lands_alarm_sound_of_mayChange {c : Instr} (hc : .alarm ∉ mayChange c) : LandsAlarmSound c s := by
  obtain ⟨t, hexec, hframe⟩ := moves_mayChange c s
  exact ⟨t, hexec, hframe.alarm_sound hc h⟩

/-- A service reset keeps the journal, and nothing else of the alarm unit (R175). -/
theorem exec_serviceReset_lands_alarm_sound : LandsAlarmSound .serviceReset s :=
  ⟨_, rfl, fun _ => ⟨rfl, rfl⟩, h.entries, h.journal, Nat.zero_le _⟩

theorem exec_listeningExpiry_lands_alarm_sound : LandsAlarmSound .listeningExpiry s := by
  refine ⟨_, rfl, ?_⟩
  dsimp only
  split_ifs
  · rw [State.joinAt_alarm]
    exact ageJournal_sound ((s.toTick_frame _).alarm_sound (by decide) h)
  · exact h

theorem exec_frameStart_lands_alarm_sound (view : StatusView) : LandsAlarmSound (.frameStart view) s := by
  refine ⟨_, rfl, ?_⟩
  dsimp only
  split_ifs
  · refine (State.finishOffers_frame _ _).alarm_sound (by decide) ?_
    rw [State.frameStartEvent_alarm]
    exact ageJournal_sound ((s.toOffset_frame _).alarm_sound (by decide) h)
  · exact h

theorem exec_recordFade_lands_alarm_sound (ties : Ties) : LandsAlarmSound (.recordFade ties) s := by
  refine ⟨_, rfl, ?_⟩
  split_ifs
  · exact List.foldlRecOn _ _ (motive := fun u : State => u.alarm.Sound) h
      (fun _ hu _ _ => State.openAdjudication_sound hu _ _ _ _ _)
  · exact h

theorem exec_filterTick_lands_alarm_sound (i o a v : Bool) (order : TickOrder) :
    LandsAlarmSound (.filterTick i o a v order) s := by
  have htick : s.toFilterTick.alarm.Sound := s.toFilterTick_frame.alarm_sound (by decide) h
  refine ⟨_, rfl, ?_⟩
  dsimp only
  split_ifs
  · exact (State.finishOffers_frame _ _).alarm_sound (by decide) (State.sampleInputs_sound htick _ _ _ _)
  · exact htick
  · exact h

theorem exec_receiveCadence_lands_alarm_sound : LandsAlarmSound .receiveCadence s := by
  refine ⟨_, rfl, ?_⟩
  split
  · refine (State.finishOffers_frame _ _).alarm_sound (by decide) ?_
    exact State.hearCadence_sound ((s.takeNotice_frame _).alarm_sound (by decide) h) _ _
  · exact h

theorem exec_holdExpiry_lands_alarm_sound (ties : Ties) : LandsAlarmSound (.holdExpiry ties) s := by
  refine ⟨_, rfl, (State.finishOffers_frame _ _).alarm_sound (by decide) ?_⟩
  refine List.foldlRecOn _ _ (motive := fun u : State => u.alarm.Sound) h (fun u hu a _ => ?_)
  exact State.settle_sound ((u.withList_frame _).alarm_sound (by decide) hu) _ _

theorem exec_receiveAck_lands_alarm_sound : LandsAlarmSound .receiveAck s := by
  refine ⟨_, rfl, ?_⟩
  split
  case h_1 p lane _ =>
    have hheard := (s.takeOther_frame p).alarm_sound (by decide) h
    dsimp only
    split_ifs
    · exact (State.finishOffers_frame _ _).alarm_sound (by decide) (State.acknowledge_sound hheard)
    · exact hheard
  case h_2 => exact h

theorem exec_receiveJournalCall_lands_alarm_sound : LandsAlarmSound .receiveJournalCall s := by
  refine ⟨_, rfl, ?_⟩
  split
  case h_1 p target index _ =>
    have hheard := (s.takeOther_frame p).alarm_sound (by decide) h
    dsimp only
    split_ifs
    · exact (State.finishOffers_frame _ _).alarm_sound (by decide) (State.answerJournal_sound hheard _)
    · exact hheard
  case h_2 => exact h

theorem exec_lands_alarm_sound (c : Instr) : LandsAlarmSound c s := by
  cases c
  case powerOnReset => exact ⟨_, rfl, fun _ => ⟨rfl, rfl⟩, nofun, Nat.zero_le _, Nat.zero_le _⟩
  case serviceReset => exact exec_serviceReset_lands_alarm_sound h
  case listeningExpiry => exact exec_listeningExpiry_lands_alarm_sound h
  case frameStart view => exact exec_frameStart_lands_alarm_sound h view
  case recordFade ties => exact exec_recordFade_lands_alarm_sound h ties
  case filterTick i o a v order => exact exec_filterTick_lands_alarm_sound h i o a v order
  case receiveCadence => exact exec_receiveCadence_lands_alarm_sound h
  case holdExpiry ties => exact exec_holdExpiry_lands_alarm_sound h ties
  case receiveAck => exact exec_receiveAck_lands_alarm_sound h
  case receiveJournalCall => exact exec_receiveJournalCall_lands_alarm_sound h
  all_goals exact lands_alarm_sound_of_mayChange h (by simp [mayChange, heard])

end Commands

/-- Settles O9: a step runs the front command on the state with the rest of the queue, whose alarm unit is the same. -/
theorem alarmSoundKept : Obligations.AlarmSoundKept := by
  unfold Obligations.AlarmSoundKept
  intro s t hsound hstep
  unfold step at hstep
  split at hstep
  case h_1 =>
    obtain rfl := Host.Outcome.next.inj hstep
    exact hsound
  case h_2 c rest _ =>
    obtain ⟨u, hexec, hlands⟩ := exec_lands_alarm_sound (s := { s with pending := rest }) hsound c
    obtain rfl := Host.Outcome.next.inj (hexec.symm.trans hstep)
    exact hlands

end Sys2Proof.Machine
end

section
/-! CERTIFICATE. The lamps and the sounder: what each alarm class shows, what lights the fault segment, and what sounds (R168 to R172,
Table 10-2). -/

namespace Sys2Proof.Machine

section Shown

variable (s : State)

theorem State.lampsFollow_iff : s.lampsFollow = true ↔
    s.startup.straps.isSome = true ∧ s.startup.state ≠ .reset ∧ s.startup.state ≠ .hold := by
  simp [State.lampsFollow, and_assoc]

theorem State.faultShown_iff : s.faultShown = true ↔
    s.sampler.west.faulted = true ∨ s.sampler.east.faulted = true ∨ s.lane.inner.stuck = true ∨ s.lane.outer.stuck = true ∨
      s.startup.defaulted = true ∨ s.neighbours.clash = true ∨ s.neighbours.lineSilent = true ∨ s.startup.key = .service ∨
      s.startup.state = .strapFault := by
  simp [State.faultShown, or_assoc]

theorem State.faultSegment_eq (h : s.lampsFollow = true) : s.faultSegment = if s.faultShown then .steady else .dark := by
  rw [State.faultSegment, h, Bool.true_and]

theorem State.sounder_iff (h : s.lampsFollow = true) : s.sounder = true ↔ s.settings.sounderEnable = true ∧
    ((s.alarm.latch.cls ≠ .noAlarm ∧ s.alarm.latch.acknowledged = false) ∨
      (s.neighbours.west.latchClass ≠ .noAlarm ∧ s.neighbours.west.latchAcknowledged = false)) := by
  simp [State.sounder, h]

/-- Lamps that follow no source are dark, and the sounder is silent (R172). -/
theorem State.dark_of_not_lampsFollow (h : s.lampsFollow = false) :
    s.eastSegment = .dark ∧ s.westSegment = .dark ∧ s.faultSegment = .dark ∧ s.sounder = false := by
  simp [State.eastSegment, State.westSegment, State.faultSegment, State.sounder, h]

end Shown

/-- An alarm segment by its class and whether it is acknowledged (R168, R169). -/
theorem alarmSegment_cases (c : AlarmClass) (acknowledged : Bool) :
    (c = .noAlarm → alarmSegment c acknowledged = .dark) ∧
      (c ≠ .noAlarm → acknowledged = true → alarmSegment c acknowledged = .steady) ∧
      (c = .unissued → acknowledged = false → alarmSegment c acknowledged = .slowFlash) ∧
      (c = .watched → acknowledged = false → alarmSegment c acknowledged = .fastFlash) := by
  cases c <;> cases acknowledged <;> simp [alarmSegment]

/-- The patterns (Table 10-2): slow, the first half of every 32,768 ticks; fast, the first half of every 8,192. -/
theorem Segment.lit_cases (tick : Nat) : Segment.steady.lit tick = true ∧ Segment.dark.lit tick = false ∧
    (Segment.slowFlash.lit tick = true ↔ tick % 32768 ≤ 16383) ∧ (Segment.fastFlash.lit tick = true ↔ tick % 8192 ≤ 4095) := by
  refine ⟨rfl, rfl, ?_, ?_⟩ <;> rw [Segment.lit, decide_eq_true_iff] <;> omega

/-- Settles O60: either the lamps follow no source, or each segment shows its own. -/
theorem lampsAndSounder : Obligations.LampsAndSounder := by
  unfold Obligations.LampsAndSounder
  refine ⟨fun s hdark => s.dark_of_not_lampsFollow ?_, fun s hstraps hreset hhold => ?_, Segment.lit_cases⟩
  · rw [← Bool.not_eq_true, s.lampsFollow_iff]
    rintro ⟨hstraps, hreset, hhold⟩
    obtain hnone | hstate | hstate := hdark
    · rw [hnone] at hstraps
      cases hstraps
    · exact hreset hstate
    · exact hhold hstate
  · have hfollow := s.lampsFollow_iff.2 ⟨hstraps, hreset, hhold⟩
    have hfault := s.faultSegment_eq hfollow
    refine ⟨?segments, ?fault, ?faultDark, s.sounder_iff hfollow⟩
    case segments =>
      intro segment c acknowledged hshown
      rw [State.eastSegment, State.westSegment, if_pos hfollow, if_pos hfollow] at hshown
      have hsegment : segment = alarmSegment c acknowledged := by
        obtain h | h := hshown <;> (obtain ⟨rfl, rfl, rfl⟩ := h; rfl)
      rw [hsegment]
      exact alarmSegment_cases c acknowledged
    case fault =>
      rw [hfault, ← s.faultShown_iff]
      simp
    case faultDark =>
      rw [hfault]
      split_ifs
      · exact .inl rfl
      · exact .inr rfl

end Sys2Proof.Machine
end

section
/-! SUPPORT. Work of the alarm unit that finds room: the alarm unit replaced, and its notices at the end of the queue (R109, R161, R174). -/

namespace Sys2Proof.Machine

/-- The state with another alarm unit and with notices offered, which find room. -/
def State.alarmMoved (s : State) (a : AlarmUnit) (ns : List Notice) : State :=
  (s.withAlarm a).withLine { s.line with queue := s.line.queue ++ ns.map Queued.fresh }

section Moved

variable {s : State}

theorem State.alarmMoved_none : s.alarmMoved s.alarm [] = s := by
  rw [State.alarmMoved, List.map_nil, List.append_nil]
  rfl

theorem State.alarmMoved_frame (a : AlarmUnit) (ns : List Notice) : SameBut s [.alarm, .line] (s.alarmMoved a ns) :=
  (s.withAlarm_frame a).then (State.withLine_frame _ _) (by decide) (by decide)

/-- One offer more. -/
theorem State.alarmMoved_offer {ns : List Notice} (room : s.HasRoom (ns.length + 1)) (a : AlarmUnit) (n : Notice) :
    (s.alarmMoved a ns).offer n = s.alarmMoved a (ns ++ [n]) := by
  have hroom : (s.alarmMoved a ns).HasRoom 1 := ⟨room.awake, by
    have := room.fits
    rw [State.alarmMoved, State.withLine_line, List.length_append, List.length_map]
    omega, room.quiet⟩
  rw [State.offer_room hroom]
  simp [State.alarmMoved]

/-- A change of the latch with its ALARM (R161). -/
theorem State.changeLatch_room (room : s.HasRoom 1) (l : Latch) (change : LatchChange) : s.changeLatch l change =
    s.alarmMoved { s.alarm with latch := l } [.alarm s.laneByte l.cls change l.acknowledged] :=
  State.offer_room (s := s.withAlarm { s.alarm with latch := l }) ⟨room.awake, room.fits, room.quiet⟩ _

/-- The answer to a JOURNAL CALL (R174). -/
theorem State.answerJournal_room (room : s.HasRoom 1) (index : Byte) : s.answerJournal index =
    s.alarmMoved { s.alarm with cursor := s.alarm.cursorAfter (s.alarm.indexRead index) }
      [.journal (BitVec.ofNat 8 (s.alarm.indexRead index))
        ((s.alarm.journal[s.alarm.indexRead index]?).map JournalEntry.body)] :=
  State.offer_room (s := s.withAlarm { s.alarm with cursor := s.alarm.cursorAfter (s.alarm.indexRead index) })
    ⟨room.awake, room.fits, room.quiet⟩ _

/-- After a notice heard from another station, with no drop report left to take (R104, R109). -/
theorem State.takeOther_alarmMoved {p : Nat} (hp : p ≠ s.position) (hquiet : s.line.dropped = []) (a : AlarmUnit)
    (ns : List Notice) : ∃ t, ((s.takeOther p).alarmMoved a ns).finishOffers .none = t ∧
      SameBut s [.cadence, .line, .neighbours, .alarm] t ∧ t.alarm = a ∧
      t.line = { s.line with rx := .hunting, queue := s.line.queue ++ ns.map Queued.fresh } := by
  have hline := State.takeOther_line hp
  refine ⟨_, State.finishOffers_none .none ?_,
    (State.takeOther_other_frame hp).then (State.alarmMoved_frame a ns) (by decide) (by decide), rfl, ?_⟩
  · rw [State.alarmMoved, hline]
    exact hquiet
  · rw [State.alarmMoved, hline]
    rfl

end Moved

end Sys2Proof.Machine
end

section
/-! CERTIFICATE. RECEIVE_JOURNAL_CALL: the entry that is answered, and the cursor (R174). -/

namespace Sys2Proof.Machine

/-- A JOURNAL CALL from another position is heard, and answered when it is for this one (R174). -/
theorem exec_receiveJournalCall_eq {s : State} {p : Nat} {target index : Byte}
    (h : s.incoming = some (p, .journalCall target index)) (hp : p ≠ s.position) :
    exec .receiveJournalCall s = .next (if target.toNat = s.position then
      ((s.takeOther p).answerJournal index).finishOffers .none else s.takeOther p) := by
  have hposition : (s.takeOther p).position = s.position := by
    rw [State.takeOther_eq hp]
    rfl
  change execReceiveJournalCall s = _
  simp only [execReceiveJournalCall, h, hposition]

/-- Settles O58: the journal holds an entry at the index read, or it ends before it. -/
theorem journalCallsAnswered : Obligations.JournalCallsAnswered := by
  unfold Obligations.JournalCallsAnswered
  intro s p target index i hincoming hp room hi
  have hread : s.alarm.indexRead index = i := hi.symm
  have hheard := State.takeOther_other_frame hp
  have halarm : (s.takeOther p).alarm = s.alarm := hheard.blocks .alarm (by decide)
  have hexec := exec_receiveJournalCall_eq hincoming hp
  by_cases htarget : target.toNat = s.position
  · rw [if_pos htarget, State.answerJournal_room (room.takeOther hp), halarm, hread] at hexec
    obtain ⟨t, ht, hframe, hunit, hline⟩ := State.takeOther_alarmMoved hp room.quiet
      { s.alarm with cursor := s.alarm.cursorAfter i } [.journal (BitVec.ofNat 8 i) ((s.alarm.journal[i]?).map JournalEntry.body)]
    rw [ht] at hexec
    refine ⟨t, hexec, hframe, fun hother => absurd htarget hother, fun _ e he => ?_, fun _ hend => ?_⟩
    · have hlt : i < s.alarm.journal.length := (List.getElem?_eq_some_iff.1 he).1
      rw [he] at hline
      rw [AlarmUnit.cursorAfter, if_pos hlt] at hunit
      exact ⟨hunit, hline⟩
    · rw [List.getElem?_eq_none hend] at hline
      rw [AlarmUnit.cursorAfter, if_neg (Nat.not_lt.2 hend)] at hunit
      exact ⟨hunit, hline⟩
  · rw [if_neg htarget] at hexec
    exact ⟨_, hexec, hheard.mono (by decide), fun _ => ⟨halarm, State.takeOther_line hp⟩,
      fun h => absurd h htarget, fun h => absurd h htarget⟩

end Sys2Proof.Machine
end

section
/-! SUPPORT. An acknowledge of the own lane, case by case: what the alarm unit becomes, and the ALARM that tells of it (R161, R162, R164,
R165, R167). -/

namespace Sys2Proof.Machine

/-- What an acknowledge makes of a set latch, and the ALARM offered (R161, R164, R165). -/
def State.latchAcked (s : State) : Latch × List Notice :=
  if s.settings.latchMode = .latched ∨ (s.alarm.latch.acknowledged = false ∧ s.lane.passage = .clear) then
    (.reset, [.alarm s.laneByte .noAlarm .cleared false])
  else if s.alarm.latch.acknowledged then (s.alarm.latch, [])
  else (⟨s.alarm.latch.cls, true, true⟩, [.alarm s.laneByte s.alarm.latch.cls .acknowledged true])

/-- What an acknowledge makes of the alarm unit, and the notices offered (R162, R167). -/
def State.ackOutcome (s : State) : AlarmUnit × List Notice :=
  if s.alarm.latch.cls = .noAlarm then (s.alarm, [])
  else (⟨s.latchAcked.1, markJournal s.alarm.journal, s.alarm.cursor⟩, s.latchAcked.2)

section Acknowledge

variable {s : State}

theorem State.latchAcked_cleared (h : s.settings.latchMode = .latched ∨
    (s.alarm.latch.acknowledged = false ∧ s.lane.passage = .clear)) :
    s.latchAcked = (⟨.noAlarm, false, false⟩, [.alarm s.laneByte .noAlarm .cleared false]) := if_pos h

theorem State.latchAcked_waits (hmode : s.settings.latchMode = .clearing) (hack : s.alarm.latch.acknowledged = false)
    (hlane : s.lane.passage ≠ .clear) : s.latchAcked =
      (⟨s.alarm.latch.cls, true, true⟩, [.alarm s.laneByte s.alarm.latch.cls .acknowledged true]) := by
  simp [State.latchAcked, hmode, hack, hlane]

theorem State.latchAcked_stays (hmode : s.settings.latchMode = .clearing) (hack : s.alarm.latch.acknowledged = true) :
    s.latchAcked = (s.alarm.latch, []) := by
  simp [State.latchAcked, hmode, hack]

theorem State.ackOutcome_unset (h : s.alarm.latch.cls = .noAlarm) : s.ackOutcome = (s.alarm, []) := if_pos h

theorem State.ackOutcome_set (h : s.alarm.latch.cls ≠ .noAlarm) : s.ackOutcome =
    (⟨s.latchAcked.1, markJournal s.alarm.journal, s.alarm.cursor⟩, s.latchAcked.2) := if_neg h

theorem State.ackOutcome_cursor : s.ackOutcome.1.cursor = s.alarm.cursor := by
  unfold State.ackOutcome
  split_ifs <;> rfl

/-- An acknowledge offers at most one notice (R161). -/
theorem State.ackOutcome_length : s.ackOutcome.2.length ≤ 1 := by
  unfold State.ackOutcome State.latchAcked
  split_ifs <;> simp

/-- The effect on a set latch that finds room for its ALARM. -/
theorem State.acknowledgeSet_room (room : s.HasRoom 1) :
    s.acknowledgeSet = s.alarmMoved { s.alarm with latch := s.latchAcked.1 } s.latchAcked.2 := by
  unfold State.acknowledgeSet
  split
  case h_1 hmode =>
    rw [State.latchAcked_cleared (.inl hmode)]
    exact State.changeLatch_room room _ _
  case h_2 hmode =>
    split_ifs with hack hlane
    · rw [State.latchAcked_stays hmode hack]
      exact State.alarmMoved_none.symm
    · rw [State.latchAcked_cleared (.inr ⟨by simpa using hack, hlane⟩)]
      exact State.changeLatch_room room _ _
    · rw [State.latchAcked_waits hmode (by simpa using hack) hlane]
      exact State.changeLatch_room room _ _

/-- An acknowledge that finds room for its ALARM. -/
theorem State.acknowledge_room (room : s.HasRoom 1) : s.acknowledge = s.alarmMoved s.ackOutcome.1 s.ackOutcome.2 := by
  unfold State.acknowledge
  split_ifs with hcls
  · rw [State.ackOutcome_unset hcls]
    exact State.alarmMoved_none.symm
  · rw [State.ackOutcome_set hcls]
    exact State.acknowledgeSet_room (s := s.withAlarm _) ⟨room.awake, room.fits, room.quiet⟩

end Acknowledge

end Sys2Proof.Machine
end

section
/-! CERTIFICATE. RECEIVE_ACK: an ACK for the own lane from the partner or the desk station is an acknowledge (R162). -/

namespace Sys2Proof.Machine

theorem State.takesAck_iff (s : State) (p : Nat) (lane : Byte) : s.takesAck p lane = true ↔
    s.ownsLane = true ∧ lane.toNat = s.position ∧ (p = s.position + 1 ∨ p = 0) := by
  simp [State.takesAck, and_assoc]

/-- Hearing a notice changes nothing that an acknowledge depends on. -/
theorem State.takeOther_ackOutcome {s : State} {p : Nat} (hp : p ≠ s.position) : (s.takeOther p).ackOutcome = s.ackOutcome := by
  rw [State.takeOther_eq hp]
  rfl

/-- An ACK from another position is heard, and is an acknowledge when the part takes it (R162). -/
theorem exec_receiveAck_eq {s : State} {p : Nat} {lane : Byte} (h : s.incoming = some (p, .ack lane)) (hp : p ≠ s.position) :
    exec .receiveAck s = .next (if s.takesAck p lane then (s.takeOther p).acknowledge.finishOffers .none else s.takeOther p) := by
  have htakes : (s.takeOther p).takesAck p lane = s.takesAck p lane := by
    rw [State.takeOther_eq hp]
    rfl
  change execReceiveAck s = _
  simp only [execReceiveAck, h, htakes]

/-- Settles O57: an ACK that is taken is an acknowledge with room for its ALARM, and any other is heard alone. -/
theorem acksApplied : Obligations.AcksApplied := by
  unfold Obligations.AcksApplied
  intro s p lane hincoming hp room
  have hexec := exec_receiveAck_eq hincoming hp
  by_cases htakes : s.takesAck p lane = true
  · rw [if_pos htakes, State.acknowledge_room (room.takeOther hp), State.takeOther_ackOutcome hp] at hexec
    obtain ⟨t, ht, hframe, hunit, hline⟩ := State.takeOther_alarmMoved hp room.quiet s.ackOutcome.1 s.ackOutcome.2
    rw [ht] at hexec
    refine ⟨t, hexec, hframe, fun hignored => ?_, fun _ _ _ hset => ?_⟩
    · have hunset := hignored.resolve_left (not_not_intro ((s.takesAck_iff p lane).1 htakes))
      rw [State.ackOutcome_unset hunset] at hunit hline
      exact ⟨hunit, by simpa using hline⟩
    · rw [State.ackOutcome_set hset] at hunit hline
      rw [hunit, hline]
      refine ⟨rfl, rfl, fun hclears => ?_, fun hmode hack hlane => ?_, fun hmode hack => ?_⟩
      · rw [State.latchAcked_cleared hclears]
        exact ⟨rfl, rfl⟩
      · rw [State.latchAcked_waits hmode hack hlane]
        exact ⟨rfl, rfl⟩
      · rw [State.latchAcked_stays hmode hack]
        exact ⟨rfl, by simp⟩
  · rw [if_neg htakes] at hexec
    have hheard := State.takeOther_other_frame hp
    exact ⟨_, hexec, hheard.mono (by decide), fun _ => ⟨hheard.blocks .alarm (by decide), State.takeOther_line hp⟩,
      fun hown hlane hsender => absurd ((s.takesAck_iff p lane).2 ⟨hown, hlane, hsender⟩) htakes⟩

end Sys2Proof.Machine
end

section
/-! CERTIFICATE. FILTER_TICK: the movement of the staff key into ACK, and the clear that waits for the lane (R161 to R167, R182). -/

namespace Sys2Proof.Machine

/-! ### The movement into ACK -/

/-- The ACK offered for the lane of the west neighbour (R163). -/
def State.westAck (s : State) : List Notice := if 2 ≤ s.position then [.ack (BitVec.ofNat 8 (s.position - 1))] else []

/-- The acknowledge of the own lane, and then the ACK for the west lane (R162, R163). -/
theorem State.keyToAck_room {s : State} (room : s.HasRoom 2) :
    s.keyToAck = s.alarmMoved s.ackOutcome.1 (s.ackOutcome.2 ++ s.westAck) := by
  have hlength := s.ackOutcome_length
  unfold State.keyToAck State.westAck
  rw [State.acknowledge_room (room.mono (by decide))]
  split_ifs
  · exact State.alarmMoved_offer (room.mono (by omega)) _ _
  · rw [List.append_nil]

/-- The staff key has been read in another position than ACK, and one sample in ACK waits for a second (R182). -/
structure KeyTurnsToAck (s : State) : Prop where
  onLine : s.startup.state = .listening ∨ s.startup.state = .joined
  started : s.startup.keyStarted = true
  elsewhere : s.startup.key ≠ .ack
  waits : s.startup.keyPending = some .ack

/-- All of it rests on the start-up block. -/
theorem KeyTurnsToAck.of_startup {s t : State} (h : KeyTurnsToAck s) (ht : t.startup = s.startup) : KeyTurnsToAck t := by
  obtain ⟨honLine, hstarted, helsewhere, hwaits⟩ := h
  constructor <;> rwa [ht]

/-- What `t` holds after the movement of the staff key into ACK in `s` (R162, R163, R182). -/
structure TurnedToAck (s t : State) : Prop where
  frame : SameBut s [.cadence, .lane, .startup, .field, .alarm, .line] t
  startup : t.startup = { s.startup with key := .ack, keyPending := none }
  passage : t.lane.passage = s.lane.passage
  alarm : t.alarm = s.ackOutcome.1
  line : t.line = { s.line with queue := s.line.queue ++ (s.ackOutcome.2 ++ s.westAck).map Queued.fresh }

section Turn

variable {s t : State}

/-- The second sample in ACK moves the key (R182). -/
theorem KeyTurnsToAck.sampleKey (h : KeyTurnsToAck s) (room : s.HasRoom 2) : TurnedToAck s (s.sampleKey (some .ack)) := by
  have hmoved : s.sampleKey (some .ack) =
      ((s.withStartup { s.startup with key := .ack, keyPending := none }).alarmMoved s.ackOutcome.1
        (s.ackOutcome.2 ++ s.westAck)).keyRequest s.startup.key .ack := by
    have hroom : (s.withStartup { s.startup with key := .ack, keyPending := none }).HasRoom 2 :=
      ⟨room.awake, room.fits, room.quiet⟩
    unfold State.sampleKey State.nextKey State.keyMoved
    rw [if_pos h.onLine, if_pos h.started]
    dsimp only
    rw [if_neg h.elsewhere.symm, if_pos h.waits, if_pos rfl, State.keyToAck_room hroom]
    rfl
  have hrequest := State.keyRequest_frame ((s.withStartup { s.startup with key := .ack, keyPending := none }).alarmMoved
    s.ackOutcome.1 (s.ackOutcome.2 ++ s.westAck)) s.startup.key .ack
  exact {
    frame := (s.sampleKey_frame _).mono (by decide)
    startup := by rw [hmoved, hrequest.blocks .startup (by decide)]; rfl
    passage := by rw [(s.sampleKey_frame _).blocks .lane (by decide)]
    alarm := by rw [hmoved, hrequest.blocks .alarm (by decide)]; rfl
    line := by rw [hmoved, hrequest.blocks .line (by decide)]; rfl }

/-- Time, the lane monitor within its state and the key's waiting sample do not touch the movement: before it. -/
theorem TurnedToAck.of_ticked {u : State} (h : TurnedToAck u t) (hu : Ticked s u) (hlane : u.lane.passage = s.lane.passage) :
    TurnedToAck s t := by
  have hlatch : u.latchAcked = s.latchAcked := by
    unfold State.latchAcked
    rw [hu.settings, hu.alarm, hu.laneByte, hlane]
  have houtcome : u.ackOutcome = s.ackOutcome := by
    unfold State.ackOutcome
    rw [hlatch, hu.alarm]
  have hwest : u.westAck = s.westAck := by
    unfold State.westAck
    rw [hu.position]
  exact {
    frame := hu.frame.then h.frame (by decide) (by decide)
    startup := by rw [h.startup, hu.startup]
    passage := h.passage.trans hlane
    alarm := by rw [h.alarm, houtcome]
    line := by rw [h.line, hu.line, houtcome, hwest] }

/-- Nor does the lane monitor, within its state, after it. -/
theorem TurnedToAck.withLane (h : TurnedToAck s t) {l : LaneMonitor} (hl : l.passage = s.lane.passage) :
    TurnedToAck s (t.withLane l) :=
  ⟨h.frame.then (t.withLane_frame l) (by decide) (by decide), h.startup, hl, h.alarm, h.line⟩

end Turn

/-! ### A tick at which the lane stays as it is -/

/-- A sample that agrees with the filtered state of its beam (R71). -/
theorem Beam.sample_same (b : Beam) : b.sample b.broken = ({ b with differ := false }, .same) := if_pos rfl

/-- No transition without a change (Table 5-2). -/
theorem Passage.move_same (p : Passage) : p.move .same .same = .to p := by cases p <;> rfl

/-- A tick whose samples agree with the filtered states leaves the lane in its state and reports nothing: the lane of an end pedestal is
CLEAR already, and one in WAIT_CLEAR has a broken beam to wait for. -/
theorem LaneMonitor.tick_still {l : LaneMonitor} (hsound : l.Sound) (hstarted : l.started = true) {endPedestal : Bool}
    (hend : endPedestal = true → l.passage = .clear)
    (hwait : l.passage = .waitClear → l.inner.broken = true ∨ l.outer.broken = true) (now : Stamp) :
    ∃ m : LaneMonitor, m.passage = l.passage ∧ l.tick endPedestal now l.inner.broken l.outer.broken = (m, .nothing) := by
  cases endPedestal with
  | true => exact ⟨l, rfl, by simp [LaneMonitor.tick, hstarted, hend rfl]⟩
  | false =>
    rw [LaneMonitor.tick_started hstarted, Beam.sample_same, Beam.sample_same]
    unfold LaneMonitor.react
    dsimp only
    split
    case h_1 hp => exact ⟨_, hp.symm, if_pos (by simpa using hwait hp)⟩
    case h_2 hp =>
      refine ⟨_, ?_, if_pos (by simpa using hsound.tagOnly.1 hp)⟩
      rfl
    case h_3 =>
      rw [Passage.move_same]
      refine ⟨_, ?_, if_neg fun h : l.passage = .clear ∧ l.passage ≠ .clear => h.2 h.1⟩
      rfl

/-- With nothing reported by the lane monitor, the key alone may act after its tick. -/
theorem State.sampleBeams_still {s : State} {i o : Bool} {m : LaneMonitor}
    (htick : s.lane.tick s.endPedestal s.stamp i o = (m, .nothing)) (order : TickOrder) (raw : Option KeyPosition) :
    s.sampleBeams i o order raw = (s.withLane m).keyAt order.key .between raw := by
  unfold State.sampleBeams State.takeLaneEvent
  rw [htick]
  dsimp only
  split_ifs <;> rfl

/-- Then the key is read before the tick of the lane monitor or after it. -/
theorem State.sampleInputs_still {s : State} {i o : Bool} {m : LaneMonitor} {raw : Option KeyPosition}
    (htick : s.lane.tick s.endPedestal s.stamp i o = (m, .nothing))
    (hstraps : (s.sampleKey raw).startup.straps = s.startup.straps) (order : TickOrder) :
    s.sampleInputs i o order raw = (s.sampleKey raw).withLane m ∨ s.sampleInputs i o order raw = (s.withLane m).sampleKey raw := by
  unfold State.sampleInputs
  cases hplace : order.key with
  | first =>
    have hkey := s.sampleKey_frame raw
    have hafter : (s.sampleKey raw).lane.tick (s.sampleKey raw).endPedestal (s.sampleKey raw).stamp i o = (m, .nothing) := by
      unfold State.endPedestal State.stamp at htick ⊢
      rwa [hkey.blocks .lane (by decide), hkey.blocks .cadence (by decide), hstraps]
    simp [State.keyAt, State.sampleBeams_still hafter, hplace]
  | between => simp [State.keyAt, State.sampleBeams_still htick, hplace]
  | last => simp [State.keyAt, State.sampleBeams_still htick, hplace]

/-- Either way the movement into ACK is that of the state before the tick. -/
theorem KeyTurnsToAck.sampleInputs {s : State} {i o : Bool} {m : LaneMonitor} (h : KeyTurnsToAck s) (room : s.HasRoom 2)
    (htick : s.lane.tick s.endPedestal s.stamp i o = (m, .nothing)) (hm : m.passage = s.lane.passage) (order : TickOrder) :
    TurnedToAck s (s.sampleInputs i o order (some .ack)) := by
  have hturned := h.sampleKey room
  obtain heq | heq := State.sampleInputs_still htick (by rw [hturned.startup]) order <;> rw [heq]
  · exact hturned.withLane hm
  · have hlane := s.withLane_ticked m
    exact ((h.of_startup (t := s.withLane m) rfl).sampleKey (hlane.hasRoom room)).of_ticked hlane hm

/-! ### A tick at which the lane returns to CLEAR -/

/-- A broken beam filtered CLEAR, or one that was CLEAR, is neither broken nor STUCK (R71, R88). -/
theorem Beam.sample_clear {b : Beam} (hclears : b.broken = true → b.differ = true) (hstuck : b.stuck = true → b.broken = true) :
    (b.sample false).1.broken = false ∧ (b.sample false).1.stuck = false := by
  unfold Beam.sample
  cases hb : b.broken with
  | true => simp [hclears hb]
  | false => simpa [hb] using hstuck

theorem Passage.inProgress_iff (p : Passage) : p.inProgress = true ↔ p ≠ .clear ∧ p ≠ .waitClear ∧ p ≠ .tagOnly := by
  cases p <;> simp [Passage.inProgress]

/-- When the beams that a passage state holds broken are filtered CLEAR together, it is left for CLEAR (R74 to R77, R79). -/
theorem Passage.move_of_clearing {p : Passage} {bi bo : Bool} (hp : p.inProgress = true)
    (hbeams : ∀ b, p.beams = some b → (bi, bo) = b) :
    p.move (if bi = true then .cleared else .same) (if bo = true then .cleared else .same) = .balk ∨
      ∃ d, p.move (if bi = true then .cleared else .same) (if bo = true then .cleared else .same) = .complete d := by
  cases p
  case clear | waitClear | tagOnly => cases hp
  case outOpening | inOpening => exact .inl (by obtain ⟨rfl, rfl⟩ := Prod.mk.inj (hbeams _ rfl); rfl)
  all_goals exact .inr ⟨_, by obtain ⟨rfl, rfl⟩ := Prod.mk.inj (hbeams _ rfl); rfl⟩

/-- With both beams CLEAR, WAIT_CLEAR is over (R78). -/
theorem LaneMonitor.waitClear_over {l : LaneMonitor} (hinner : l.inner.broken = false) (houter : l.outer.broken = false) :
    l.waitClear.1.passage = .clear := by
  simp [LaneMonitor.waitClear, hinner, houter, LaneMonitor.toClear]

/-- A tick at which every broken beam is filtered CLEAR brings the lane to CLEAR from every other state (R74 to R79, R88). -/
theorem LaneMonitor.tick_clears {l : LaneMonitor} (hsound : l.Sound) (hstarted : l.started = true) (hleft : l.passage ≠ .clear)
    (hinner : l.inner.broken = true → l.inner.differ = true) (houter : l.outer.broken = true → l.outer.differ = true)
    (now : Stamp) : (l.tick false now false false).1.passage = .clear := by
  obtain ⟨hib, his⟩ := Beam.sample_clear hinner hsound.innerStuck
  obtain ⟨hob, hos⟩ := Beam.sample_clear houter hsound.outerStuck
  rw [LaneMonitor.tick_started hstarted, Beam.sample_clearing hinner, Beam.sample_clearing houter]
  unfold LaneMonitor.react
  dsimp only
  split
  case h_1 => exact LaneMonitor.waitClear_over hib hob
  case h_2 =>
    rw [his, hos]
    exact LaneMonitor.waitClear_over hib hob
  case h_3 hwait htag =>
    have hprogress := (Passage.inProgress_iff _).2 ⟨hleft, hwait, htag⟩
    obtain hmove | ⟨d, hmove⟩ := Passage.move_of_clearing hprogress hsound.beams <;> rw [hmove] <;> rfl

/-- What such a tick reports: the entry to CLEAR, with a completed passage at most from the states that complete one (R80). -/
theorem LaneMonitor.tick_clears_event {l : LaneMonitor} (hsound : l.Sound) (hstarted : l.started = true)
    (hleft : l.passage ≠ .clear) (hinner : l.inner.broken = true → l.inner.differ = true)
    (houter : l.outer.broken = true → l.outer.differ = true) (now : Stamp) :
    ∃ (m : LaneMonitor) (c : Option Completed), m.passage = .clear ∧ l.tick false now false false = (m, ⟨c, true⟩) ∧
      (l.passage ∈ [Passage.waitClear, .tagOnly, .outOpening, .inOpening] → c = none) := by
  have hclear := LaneMonitor.tick_clears hsound hstarted hleft hinner houter now
  have hreported := LaneMonitor.tick_reported hstarted now false false
  generalize l.tick false now false false = r at hclear hreported ⊢
  cases hreported with
  | nothing same => exact absurd (same hclear) hleft
  | cleared left entered => exact ⟨_, none, entered, rfl, fun _ => rfl⟩
  | completed move entered unstamped =>
    refine ⟨_, _, entered, rfl, fun hstate => ?_⟩
    obtain ⟨hp, -⟩ | ⟨hp, -⟩ | ⟨hp | hp | hp, -⟩ := Passage.move_complete move <;> simp [hp] at hstate

section Rests

variable {s : State} {i o : Bool} {m : LaneMonitor} {ev : LaneEvent} {raw : Option KeyPosition} (hkey : KeyRests raw s)
  (htick : s.lane.tick s.endPedestal s.stamp i o = (m, ev)) (order : TickOrder)
include hkey htick

/-- With the key at rest, the lane moves, and what its tick reports follows. -/
theorem State.sampleInputs_reported : ∃ u, Ticked s u ∧ u.lane = m ∧
    s.sampleInputs i o order raw = (u.takeLaneEvent ev order raw).keyAt order.key .last raw := by
  have hfirst := hkey.keyAt_ticked order.key .first
  have hlane : (s.keyAt order.key .first raw).lane = s.lane := (s.keyAt_frame _ _ _).blocks .lane (by decide)
  refine ⟨(s.keyAt order.key .first raw).withLane m, hfirst.trans (State.withLane_ticked _ m), rfl, ?_⟩
  unfold State.sampleInputs State.sampleBeams
  rw [hlane, hfirst.endPedestal, hfirst.stamp, htick]

theorem State.sampleInputs_lane : (s.sampleInputs i o order raw).lane = m := by
  obtain ⟨u, -, hlane, heq⟩ := State.sampleInputs_reported hkey htick order
  rw [heq, (State.keyAt_frame _ _ _ _).blocks .lane (by decide), State.takeLaneEvent_lane, hlane]

end Rests

/-- With no passage to deliver, the tick is the return-to-CLEAR report, whatever the order (R80, R166). -/
theorem State.sampleInputs_returns {s : State} {i o : Bool} {m : LaneMonitor} {c : Option Completed} {raw : Option KeyPosition}
    (hkey : KeyRests raw s) (htick : s.lane.tick s.endPedestal s.stamp i o = (m, ⟨c, true⟩)) (hc : c = none ∨ s.Discards)
    (room : s.HasRoom 1) (order : TickOrder) : Ticked s.latchCleared (s.sampleInputs i o order raw) := by
  have hidle : ∀ u : State, (s.Discards → u.Discards) → u.takePassage c = u := fun u hu => by
    obtain rfl | hdiscards := hc
    · rfl
    · exact State.takePassage_discarded (hu hdiscards) c
  obtain ⟨u, hu, -, heq⟩ := State.sampleInputs_reported hkey htick order
  have hkey := hkey.ticked hu
  rw [heq, State.takeLaneEvent]
  split_ifs
  · have hreport := hkey.frame u.returnToClear_frame (by decide)
    have hbetween := hreport.keyAt_ticked order.key .between
    have hv := (hu.returnToClear (.inr room)).trans hbetween
    have hdone := hidle _ fun h => hv.discards.2 (State.latchCleared_discards.2 h)
    rw [State.takeClear, if_pos rfl, hdone]
    exact hv.trans ((hreport.ticked hbetween).keyAt_ticked order.key .last)
  · have hbetween := hkey.keyAt_ticked order.key .between
    have hv := hu.trans hbetween
    have hreport := (hkey.ticked hbetween).frame (State.returnToClear_frame _) (by decide)
    rw [hidle u hu.discards.2, State.takeClear, if_pos rfl]
    exact (hv.returnToClear (.inr room)).trans (hreport.keyAt_ticked order.key .last)

/-! ### The statement -/

theorem State.clockRuns_of_onLine {s : State} (h : s.startup.state = .listening ∨ s.startup.state = .joined) :
    s.clockRuns = true := by
  obtain h | h := h <;> simp [State.clockRuns, h]

/-- The command at a tick that moves the key into ACK with the lane left as it is. -/
theorem exec_filterTick_toAck {s : State} (hkey : KeyTurnsToAck s) (hstraps : s.startup.straps.isSome = true)
    (room : s.HasRoom 2) (hsound : s.lane.Sound) (hstarted : s.lane.started = true)
    (hend : s.endPedestal = true → s.lane.passage = .clear)
    (hwait : s.lane.passage = .waitClear → s.lane.inner.broken = true ∨ s.lane.outer.broken = true) (order : TickOrder) :
    ∃ t, exec (.filterTick s.lane.inner.broken s.lane.outer.broken true false order) s = .next t ∧ TurnedToAck s t := by
  have htime := s.toFilterTick_ticked
  have hlane : s.toFilterTick.lane = s.lane := s.toFilterTick_frame.blocks .lane (by decide)
  have hturns := hkey.of_startup (s.toFilterTick_frame.blocks .startup (by decide))
  obtain ⟨m, hm, hstill⟩ := LaneMonitor.tick_still hsound hstarted hend hwait s.stamp
  have htick : s.toFilterTick.lane.tick s.toFilterTick.endPedestal s.toFilterTick.stamp s.lane.inner.broken
      s.lane.outer.broken = (m, .nothing) := by
    rwa [hlane, htime.endPedestal, htime.stamp]
  have hturned := (hturns.sampleInputs (htime.hasRoom room) htick (by rw [hm, hlane]) order).of_ticked htime (by rw [hlane])
  refine ⟨_, exec_filterTick_works (State.clockRuns_of_onLine hkey.onLine) hstraps _ _ _ _ _, ?_⟩
  rw [show rawKey true false = some .ack from rfl, State.finishOffers_none _ (by rw [hturned.line]; exact room.quiet)]
  exact hturned

/-- The command at a tick with the key at rest that brings the lane to CLEAR with no passage to deliver. -/
theorem exec_filterTick_returns {s : State} (honLine : s.startup.state = .listening ∨ s.startup.state = .joined)
    (hstraps : s.startup.straps.isSome = true) (hread : s.startup.keyStarted = true) (room : s.HasRoom 1)
    {i o : Bool} {m : LaneMonitor} {c : Option Completed} (htick : s.lane.tick s.endPedestal s.stamp i o = (m, ⟨c, true⟩))
    (hc : c = none ∨ s.Discards) (order : TickOrder) :
    ∃ t, exec (.filterTick i o (s.startup.key == .ack) (s.startup.key == .service) order) s = .next t ∧
      Ticked s.latchCleared t ∧ t.lane = m := by
  have htime := s.toFilterTick_ticked
  have hkey : KeyRests (rawKey (s.startup.key == .ack) (s.startup.key == .service)) s.toFilterTick :=
    KeyRests.ticked ⟨honLine, hread, rawKey_position _⟩ htime
  rw [← s.toFilterTick_frame.blocks .lane (by decide), ← htime.endPedestal, ← htime.stamp] at htick
  have hdone := htime.latchCleared.trans
    (State.sampleInputs_returns hkey htick (hc.imp_right htime.discards.2) (htime.hasRoom room) order)
  refine ⟨_, exec_filterTick_works (State.clockRuns_of_onLine honLine) hstraps _ _ _ _ _, ?_⟩
  rw [State.finishOffers_none _ (by rw [hdone.line]; exact room.latchCleared.quiet)]
  exact ⟨hdone, State.sampleInputs_lane hkey htick order⟩

/-- Settles O36: the movement into ACK is one state operation whatever the order, and so is the return to CLEAR. -/
theorem keyIntoAckOffersAck : Obligations.KeyIntoAckOffersAck := by
  unfold Obligations.KeyIntoAckOffersAck
  refine ⟨?turned, ?returned⟩
  case turned =>
    intro s order acks honLine hstraps hread helsewhere hwaits hsound hstarted hend hwait room hacks
    obtain ⟨t, hexec, hturned⟩ := exec_filterTick_toAck ⟨honLine, hread, helsewhere, hwaits⟩ hstraps room hsound hstarted hend
      hwait order
    have halarm := hturned.alarm
    have hline := hturned.line
    rw [State.westAck, ← hacks] at hline
    refine ⟨t, hexec, hturned.frame, hturned.startup, hturned.passage, by rw [halarm, State.ackOutcome_cursor],
      fun hunset => ?_, fun hset => ?_⟩
    · rw [State.ackOutcome_unset hunset] at halarm hline
      exact ⟨halarm, hline⟩
    · rw [State.ackOutcome_set hset] at halarm hline
      rw [halarm, hline]
      refine ⟨rfl, fun hclears => ?_, fun hmode hack hlane => ?_, fun hmode hack => ?_⟩
      · rw [State.latchAcked_cleared hclears]
        exact ⟨rfl, rfl⟩
      · rw [State.latchAcked_waits hmode hack hlane]
        exact ⟨rfl, rfl⟩
      · rw [State.latchAcked_stays hmode hack]
        exact ⟨rfl, rfl⟩
  case returned =>
    intro s order honLine hstraps hend hread hsound hstarted hleft hinner houter hnoPassage room
    obtain ⟨m, c, hclear, hclears, hnone⟩ := LaneMonitor.tick_clears_event hsound hstarted hleft hinner houter s.stamp
    have htick : s.lane.tick s.endPedestal s.stamp false false = (m, ⟨c, true⟩) := by rwa [hend]
    obtain ⟨t, hexec, hdone, hlane⟩ := exec_filterTick_returns honLine hstraps hread room htick (hnoPassage.imp_left hnone) order
    refine ⟨t, hexec, s.latchCleared_frame.then hdone.frame (by decide) (by decide), by rw [hlane, hclear], ?_⟩
    rw [hdone.alarm, hdone.line]
    refine ⟨fun hmode hpending => ?_, fun hstays => ?_⟩
    · rw [State.latchCleared, if_pos ⟨hmode, hpending⟩]
      exact ⟨rfl, rfl⟩
    · rw [State.latchCleared, if_neg (by rintro ⟨hmode, hpending⟩; simp [hmode, hpending] at hstays)]
      exact ⟨rfl, rfl⟩

end Sys2Proof.Machine
end

section
/-! CERTIFICATE. The bytes of a configuration image, read back (R180, Table 11-2). -/

namespace Sys2Proof.Machine

/-! ### Fields of one byte and of two -/

theorem field8_eq {bytes : List Byte} {i n : Nat} (hbyte : bytes.getD i 0 = BitVec.ofNat 8 n) (hn : n < 256) :
    field8 bytes i = n := by
  rw [field8, hbyte, BitVec.toNat_ofNat]
  exact Nat.mod_eq_of_lt hn

theorem field16_eq {bytes : List Byte} {i n : Nat} (hhigh : bytes.getD i 0 = byteOf (BitVec.ofNat 16 n) 1)
    (hlow : bytes.getD (i + 1) 0 = byteOf (BitVec.ofNat 16 n) 0) (hn : n < 65536) : field16 bytes i = n := by
  rw [field16, hhigh, hlow, of16_byteOf, BitVec.toNat_ofNat]
  exact Nat.mod_eq_of_lt hn

/-! ### The flag bits of byte 13 -/

/-- Byte 13 of an image: the latch mode in bit 0, the sounder enable in bit 1 (Table 11-2). -/
def flagBits (mode : LatchMode) (sounder : Bool) : Byte :=
  (if mode = .latched then 1 else 0) + (if sounder then 2 else 0)

theorem flagBits_mode (mode : LatchMode) (sounder : Bool) :
    (if (flagBits mode sounder).getLsbD 0 then LatchMode.latched else .clearing) = mode := by
  cases mode <;> cases sounder <;> rfl

theorem flagBits_sounder (mode : LatchMode) (sounder : Bool) : (flagBits mode sounder).getLsbD 1 = sounder := by
  cases mode <;> cases sounder <;> rfl

theorem flagBits_le (mode : LatchMode) (sounder : Bool) : (flagBits mode sounder).toNat ≤ 3 := by
  cases mode <;> cases sounder <;> decide

/-! ### The watch entries -/

/-- The bytes of an entry, at its place in an image, are read as that entry. -/
theorem watchEntryOf_bytes (e : WatchEntry) {k : Nat} {pre post : List Byte} (hpre : pre.length = 14 + 5 * k) :
    watchEntryOf (pre ++ (e.bytes ++ post)) k = e := by
  obtain ⟨serial, enabled⟩ := e
  cases enabled <;> simp [watchEntryOf, ← hpre, WatchEntry.bytes, be32]

/-- The enable of an entry, at its place in an image, lies in its range. -/
theorem watchEnable_le (e : WatchEntry) {k : Nat} {pre post : List Byte} (hpre : pre.length = 14 + 5 * k) :
    field8 (pre ++ (e.bytes ++ post)) (18 + 5 * k) ≤ 1 := by
  obtain ⟨serial, enabled⟩ := e
  rw [show 18 + 5 * k = pre.length + 4 by omega]
  cases enabled <;> simp [field8, WatchEntry.bytes, be32]

theorem flatMap_bytes_length (es : List WatchEntry) : (es.flatMap WatchEntry.bytes).length = 5 * es.length := by
  induction es with
  | nil => rfl
  | cons e es ih =>
    rw [List.flatMap_cons, List.length_append, ih, List.length_cons, Nat.mul_succ, Nat.add_comm]
    rfl

theorem watch_length_of_inRange {x : Settings} (hx : x.inRange) : x.watch.length = 8 := by
  unfold Settings.inRange at hx
  omega

section Image

variable (x : Settings) (rest : List Byte)

/-- Fourteen bytes stand before the watch entries (Table 11-2). -/
theorem settingsBytes_split : ∃ head : List Byte, head.length = 14 ∧ x.bytes = head ++ x.watch.flatMap WatchEntry.bytes :=
  ⟨_, rfl, rfl⟩

theorem settingsBytes_length : x.bytes.length = 14 + 5 * x.watch.length := by
  obtain ⟨head, hhead, hbytes⟩ := settingsBytes_split x
  rw [hbytes, List.length_append, hhead, flatMap_bytes_length]

/-- Watch entry `k` stands at byte 14 + 5k of the image. -/
theorem settingsBytes_splitAt {k : Nat} (hk : k < x.watch.length) :
    ∃ pre post, pre.length = 14 + 5 * k ∧ x.bytes ++ rest = pre ++ (x.watch[k].bytes ++ post) := by
  obtain ⟨head, hhead, hbytes⟩ := settingsBytes_split x
  refine ⟨head ++ (x.watch.take k).flatMap WatchEntry.bytes, (x.watch.drop (k + 1)).flatMap WatchEntry.bytes ++ rest, ?_, ?_⟩
  · rw [List.length_append, hhead, flatMap_bytes_length, List.length_take_of_le hk.le]
  · have hwatch : x.watch.flatMap WatchEntry.bytes = (x.watch.take k).flatMap WatchEntry.bytes ++
        (x.watch[k].bytes ++ (x.watch.drop (k + 1)).flatMap WatchEntry.bytes) := by
      rw [← List.flatMap_cons, ← List.flatMap_append, List.getElem_cons_drop, List.take_append_drop]
    rw [hbytes, hwatch]
    simp only [List.append_assoc]

theorem watch_readBack (hwatch : x.watch.length = 8) : (List.range 8).map (watchEntryOf (x.bytes ++ rest)) = x.watch := by
  refine List.ext_getElem (by simp [hwatch]) fun k _ hk => ?_
  obtain ⟨pre, post, hpre, hbytes⟩ := settingsBytes_splitAt x rest hk
  rw [List.getElem_map, List.getElem_range, hbytes, watchEntryOf_bytes _ hpre]

/-! ### The image -/

/-- The bytes of settings in range hold those settings, whatever follows them. -/
theorem imageSettings_bytes (hx : x.inRange) : imageSettings (x.bytes ++ rest) = x := by
  have hwatch := watch_length_of_inRange hx
  unfold Settings.inRange at hx
  have hflags : (x.bytes ++ rest).getD 13 0 = flagBits x.latchMode x.sounderEnable := rfl
  rw [imageSettings, field8_eq (n := x.settle) rfl (by omega), field8_eq (n := x.noiseFloor) rfl (by omega),
    field8_eq (n := x.normalThreshold) rfl (by omega), field8_eq (n := x.soloThreshold) rfl (by omega),
    field16_eq (n := x.evidenceFloor) rfl rfl (by omega), field16_eq (n := x.strayAge) rfl rfl (by omega),
    field8_eq (n := x.moveStep) rfl (by omega), field16_eq (n := x.holdOff) rfl rfl (by omega),
    field16_eq (n := x.grace) rfl rfl (by omega), hflags, flagBits_mode, flagBits_sounder, watch_readBack x rest hwatch]

end Image

/-- The ranges of an image are those of the settings it holds, of its flag bits and of its enables (R180, Table 11-2). -/
theorem imageInRange_iff (bytes : List Byte) : imageInRange bytes = true ↔
    (imageSettings bytes).inRange ∧ field8 bytes 13 ≤ 3 ∧ ∀ k < 8, field8 bytes (18 + 5 * k) ≤ 1 := by
  simp [imageInRange, inRange, Settings.inRange, imageSettings, and_assoc]

theorem imageInRange_bytes {x : Settings} (hx : x.inRange) (rest : List Byte) : imageInRange (x.bytes ++ rest) = true := by
  have hwatch := watch_length_of_inRange hx
  refine (imageInRange_iff _).2 ⟨?_, flagBits_le x.latchMode x.sounderEnable, fun k hk => ?_⟩
  · rwa [imageSettings_bytes x rest hx]
  · obtain ⟨pre, post, hpre, hbytes⟩ := settingsBytes_splitAt x rest (hwatch ▸ hk)
    rw [hbytes]
    exact watchEnable_le _ hpre

/-- Settles O12: the image has its 55 bytes, its check agrees, its ranges hold, and it holds the settings. -/
theorem configImageRoundTrip : Obligations.ConfigImageRoundTrip := by
  unfold Obligations.ConfigImageRoundTrip
  intro x hx
  have hwatch := watch_length_of_inRange hx
  have hlength : x.bytes.length = 54 := by rw [settingsBytes_length, hwatch]
  have hcheck : crc8 ((x.bytes ++ [crc8 x.bytes]).take 54) = (x.bytes ++ [crc8 x.bytes]).getD 54 0 := by
    simp [← hlength]
  rw [readImage, if_pos ⟨by simp [hlength], hcheck, imageInRange_bytes hx _⟩, imageSettings_bytes x _ hx]

end Sys2Proof.Machine
end

section
/-! CERTIFICATE. RESET_END and STRAPS_SAMPLE: the start sequence to CONFIG or to STRAP FAULT (R3, R176 to R179). -/

namespace Sys2Proof.Machine

theorem exec_resetEnd_begins {s : State} (hs : s.startup.state = .reset) : exec .resetEnd s = .next
    ((s.withStartup { s.startup with state := .straps, supply := .aboveHold }).withCadence
      { s.cadence with clock := 0, nextFilter := 32 }) := by
  change execResetEnd s = _
  rw [execResetEnd, if_pos hs]

/-! ### The straps -/

theorem Straps.valid_iff (x : Straps) : x.valid = true ↔ 1 ≤ x.position ∧ x.position ≤ 9 := by simp [Straps.valid]

/-- A position of 1 to 9 begins CONFIG and its read (R177, R179). -/
theorem State.takeStraps_valid (s : State) {x : Straps} (hx : 1 ≤ x.position ∧ x.position ≤ 9) : s.takeStraps x =
    s.withStartup { s.startup with straps := some x, state := .config, configFrom := s.freeRun, port := [.start] } :=
  if_pos (x.valid_iff.2 hx)

/-- Any other position is STRAP FAULT (R178). -/
theorem State.takeStraps_invalid (s : State) {x : Straps} (hx : ¬(1 ≤ x.position ∧ x.position ≤ 9)) : s.takeStraps x =
    s.withStartup { s.startup with straps := some x, state := .strapFault } :=
  if_neg (mt x.valid_iff.1 hx)

/-- In STRAPS time runs on to tick 48, and the straps are taken there (R177). -/
theorem exec_strapsSample_takes {s : State} (hs : s.startup.state = .straps) (hclock : s.cadence.clock ≤ 48 * 15625)
    (pins : BitVec 4) (low : Bool) :
    ∃ c, exec (.strapsSample pins low) s = .next ((s.withCadence c).takeStraps (strapsOf pins low)) ∧
      (s.withCadence c).freeRun = 48 ∧ s.cadence.sameButTime c := by
  have hruns : s.clockRuns = true := by simp [State.clockRuns, hs]
  obtain ⟨c, hc, hat, htime⟩ := State.toMoment_runs hruns (48 * 15625)
  refine ⟨c, ?_, ?_, htime⟩
  · change execStrapsSample pins low s = _
    rw [execStrapsSample, if_pos hs, ← hc]
    rfl
  · rw [max_eq_right hclock] at hat
    rw [State.freeRun, State.withCadence_cadence, hat]
    rfl

/-- Settles O16: the two commands replace the start-up block and the cadence unit, and the position decides what STRAPS leads to. -/
theorem startSequence : Obligations.StartSequence := by
  unfold Obligations.StartSequence
  refine ⟨fun s hs => ?_, fun s pins low hs hclock => ?_⟩
  · exact ⟨_, exec_resetEnd_begins hs, (s.withStartup_frame _).then (State.withCadence_frame _ _) (by simp) (by simp), rfl, rfl⟩
  · obtain ⟨c, hexec, hcount, htime⟩ := exec_strapsSample_takes hs hclock pins low
    by_cases hvalid : 1 ≤ pins.toNat ∧ pins.toNat ≤ 9
    · rw [State.takeStraps_valid _ (x := strapsOf pins low) hvalid, hcount] at hexec
      exact ⟨_, hexec, (s.withCadence_frame c).then (State.withStartup_frame _ _) (by simp) (by simp), hcount, htime, rfl,
        fun _ => rfl, fun _ => by omega⟩
    · rw [State.takeStraps_invalid _ (x := strapsOf pins low) hvalid] at hexec
      exact ⟨_, hexec, (s.withCadence_frame c).then (State.withStartup_frame _ _) (by simp) (by simp), hcount, htime, rfl,
        fun _ => absurd ‹_› hvalid, fun _ => rfl⟩

end Sys2Proof.Machine
end

section
/-! CERTIFICATE. A step runs the command at the front of the queue, and every command answers a next state in which only the blocks of
`mayChange` may differ. -/

namespace Sys2Proof.Machine

theorem step_front (c : Instr) (rest : List Instr) (s : State) :
    step { s with pending := c :: rest } = exec c { s with pending := rest } := rfl

theorem step_idle {s : State} (h : s.pending = []) : step s = .next s := by rw [step, h]

/-- Settles O1: the queue is empty or has a front command. -/
theorem stepRunsFrontCommand : Obligations.StepRunsFrontCommand := by
  unfold Obligations.StepRunsFrontCommand
  exact ⟨step_front, fun _ => step_idle⟩

/-- Settles O2, command by command: `moves_mayChange` cites what each one leaves unchanged. -/
theorem commandsChangeOnlyTheirBlocks : Obligations.CommandsChangeOnlyTheirBlocks := by
  unfold Obligations.CommandsChangeOnlyTheirBlocks
  exact moves_mayChange

end Sys2Proof.Machine
end

section
/-! CERTIFICATE. The commands whose event cannot occur change nothing (notes/assumptions/1.md): for each command, the condition that its
guard asks for, failing. -/

namespace Sys2Proof.Machine

variable {s : State}

/-! ### The guards -/

theorem State.isJoined_iff (s : State) : s.isJoined = true ↔ s.cadence.join = .joined := beq_iff_eq

theorem State.ownBreak_iff (s : State) : s.ownBreak = true ↔ s.line.tx = .brk ∧ s.line.sending = [] := by
  rw [State.ownBreak, Bool.and_eq_true, beq_iff_eq, List.isEmpty_iff]

theorem RowLine.sends_iff (l : RowLine) : l.sends = true ↔ l.tx = .sending ∨ (l.tx = .brk ∧ l.sending ≠ []) := by
  simp [RowLine.sends]

theorem State.markWaits_iff (s : State) : s.markWaits = true ↔ s.cadence.mark = .pending ∧ s.cadence.frameIdx = 0 ∧
    s.line.tx = .waiting ∧ s.line.quietFrom = none ∧ s.line.lowFrom = none := by
  simp [State.markWaits, and_assoc]

/-! ### Start-up and supply -/

theorem exec_resetEnd_absent (h : s.startup.state ≠ .reset) : exec .resetEnd s = .next s :=
  congrArg Host.Outcome.next (if_neg h)

theorem exec_strapsSample_absent (h : s.startup.state ≠ .straps) (pins : BitVec 4) (low : Bool) :
    exec (.strapsSample pins low) s = .next s := congrArg Host.Outcome.next (if_neg h)

theorem exec_configTransferComplete_absent (h : s.startup.state ≠ .config) (wait : Nat) (bytes : List Byte) :
    exec (.configTransferComplete wait bytes) s = .next s := congrArg Host.Outcome.next (if_neg h)

theorem exec_configNoResponse_absent (h : s.startup.state ≠ .config) (cause : NoResponse) :
    exec (.configNoResponse cause) s = .next s := congrArg Host.Outcome.next (if_neg h)

theorem exec_holdResume_absent (h : s.startup.state ≠ .hold) : exec .holdResume s = .next s :=
  congrArg Host.Outcome.next (if_neg h)

theorem exec_listeningExpiry_absent (h : s.cadence.join ≠ .listening) : exec .listeningExpiry s = .next s :=
  congrArg Host.Outcome.next (if_neg h)

theorem exec_filterTick_absent (h : s.clockRuns = false) (i o a v : Bool) (order : TickOrder) :
    exec (.filterTick i o a v order) s = .next s := congrArg Host.Outcome.next (if_neg (Bool.eq_false_iff.1 h))

/-! ### The frame -/

theorem exec_frameStart_absent (h : s.cadence.join ≠ .joined) (view : StatusView) : exec (.frameStart view) s = .next s :=
  congrArg Host.Outcome.next (if_neg (s.isJoined_iff.not.2 h))

theorem exec_transmitWindowEnd_absent (h : s.cadence.join ≠ .joined) : exec .transmitWindowEnd s = .next s :=
  congrArg Host.Outcome.next (if_neg (s.isJoined_iff.not.2 h))

/-- A slot ends while JOINED, as one of sixteen, and after those before it (R24, R40). -/
theorem exec_slotEnd_absent {slot : Nat} (h : s.cadence.join ≠ .joined ∨ 16 ≤ slot ∨ slot < s.cadence.slotsEnded)
    (we ee : List Nat) (wb eb : List (List Bool)) : exec (.slotEnd slot we ee wb eb) s = .next s := by
  refine congrArg Host.Outcome.next (if_neg ?_)
  rintro ⟨hjoined, hslot, -, hended, -⟩
  obtain hjoin | hlast | hbefore := h
  · exact hjoin (s.isJoined_iff.1 hjoined)
  · exact Nat.not_lt.2 hlast hslot
  · exact Nat.not_lt.2 hended hbefore

/-- A coil check is done while JOINED, in frame index 12, once in the frame (R28). -/
theorem exec_coilCheck_absent (h : s.cadence.join ≠ .joined ∨ s.cadence.coilChecked = true ∨ s.cadence.frameIdx ≠ 12) (w e : Nat) :
    exec (.coilCheck w e) s = .next s := by
  refine congrArg Host.Outcome.next (if_neg ?_)
  rintro ⟨hjoined, hidx, hdone, -⟩
  obtain hjoin | hchecked | hother := h
  · exact hjoin (s.isJoined_iff.1 hjoined)
  · exact Bool.false_ne_true (hdone.symm.trans hchecked)
  · exact hother hidx

/-! ### Marks and breaks -/

/-- With no edge waiting, a mark that is not pending, or a line that is low, sends nothing (R10). -/
theorem exec_markSend_absent (hedges : s.line.edges = []) (h : s.cadence.mark ≠ .pending ∨ s.line.lowFrom ≠ none) :
    exec .markSend s = .next s := by
  change execMarkSend s = _
  rw [execMarkSend, State.readEdges_nil hedges]
  refine congrArg Host.Outcome.next (if_neg (s.markWaits_iff.not.2 ?_))
  rintro ⟨hmark, -, -, -, hhigh⟩
  exact h.elim (· hmark) (· hhigh)

theorem exec_markAbandon_absent (h : s.cadence.mark ≠ .pending) : exec .markAbandon s = .next s :=
  congrArg Host.Outcome.next (if_neg h)

theorem exec_breakReleaseTimeout_absent (h : ¬(s.line.tx = .brk ∧ s.line.sending = [])) :
    exec .breakReleaseTimeout s = .next s := congrArg Host.Outcome.next (if_neg (s.ownBreak_iff.not.2 h))

theorem exec_quietEnd_absent (h : s.line.quietFrom = none) : exec .quietEnd s = .next s := by
  change execQuietEnd s = _
  rw [execQuietEnd, h]

/-! ### The receiver -/

theorem exec_breakRecognized_off (h : s.line.rx = .off) (spell : LowSpell) : exec (.breakRecognized spell) s = .next s :=
  congrArg Host.Outcome.next (if_pos h)

theorem exec_framingError_off (h : s.line.rx = .off) (lost : LostCharacter) : exec (.framingError lost) s = .next s :=
  congrArg Host.Outcome.next (if_pos (.inl h))

theorem exec_characterReceived_off (h : s.line.rx = .off) (wait : Nat) (levels : BitVec 10) (stop : Bool) :
    exec (.characterReceived wait levels stop) s = .next s := congrArg Host.Outcome.next (if_pos h)

/-- With no edge waiting, the idle count times out a notice in assembly on a line that is high, while the part does not send
(R96, R103). -/
theorem exec_receiverIdleTimeout_absent (hedges : s.line.edges = [])
    (h : (∀ bytes own, s.line.rx ≠ .assembling bytes own) ∨ s.line.lowFrom ≠ none ∨ s.line.sends = true) :
    exec .receiverIdleTimeout s = .next s := by
  change execReceiverIdleTimeout s = _
  rw [execReceiverIdleTimeout, State.readEdges_nil hedges]
  refine congrArg Host.Outcome.next ?_
  dsimp only
  split
  case h_1 bytes own hrx hidle =>
    obtain ⟨hhigh, hquiet⟩ := Bool.or_eq_false_iff.1 hidle
    obtain hnone | hlow | hsends := h
    · exact absurd hrx (hnone bytes own)
    · exact absurd (Option.isSome_eq_false_iff.1 hhigh) (by simpa using hlow)
    · exact absurd (hquiet.symm.trans hsends) Bool.false_ne_true
  case h_2 => rfl

theorem exec_noticeInvalid_absent (h : ∀ bytes own, s.line.rx ≠ .assembling bytes own) : exec .noticeInvalid s = .next s := by
  change execNoticeInvalid s = _
  cases hrx : s.line.rx with
  | assembling bytes own => exact absurd hrx (h bytes own)
  | off | hunting => rw [execNoticeInvalid, hrx]

/-! ### Sending -/

theorem exec_noticeStart_absent (hedges : s.line.edges = []) (h : s.line.tx ≠ .waiting ∨ s.line.lowFrom ≠ none) :
    exec .noticeStart s = .next s := by
  refine exec_noticeStart_held (State.readEdges_nil hedges _ _).symm ?_
  rintro ⟨hwaiting, -, hhigh, -⟩
  exact h.elim (· hwaiting) (· hhigh)

theorem exec_noticeSent_absent (h : s.line.sends = false) : exec .noticeSent s = .next s := by
  change execNoticeSent s = _
  rw [execNoticeSent, h]

/-- A collision is read in a bit in which the part sends a 1 (R98). -/
theorem exec_collision_absent {bit : Nat} (h : s.line.sends = false ∨ s.line.sentLevel bit ≠ some true) :
    exec (.collision bit) s = .next s := by
  refine congrArg Host.Outcome.next ?_
  split
  case h_1 hsends hlevel _ =>
    obtain hsilent | hother := h
    · exact absurd (hsilent.symm.trans hsends) Bool.false_ne_true
    · exact absurd hlevel hother
  case h_2 => rfl

/-! ### Notices heard -/

/-- Each RECEIVE_ command takes its notice from the one complete and valid in assembly (notes/assumptions/12.md). -/
theorem exec_receive_absent (h : s.incoming = none) : ∀ c ∈ [Instr.receiveCadence, .receiveStatus, .receiveCall, .receiveEvidence,
    .receiveVerdict, .receiveSettlement, .receiveAlarm, .receiveAck, .receiveJournalCall, .receiveJournal],
    exec c s = .next s := by
  simp [exec, execReceiveCadence, execReceiveStatus, execReceiveCall, execReceiveEvidence, execReceiveVerdict,
    execReceiveSettlement, execReceiveAlarm, execReceiveAck, execReceiveJournalCall, execReceiveJournal, h]

/-! ### The statement -/

/-- Settles O3: each clause is the guard of its commands, failing. -/
theorem absentEventsChangeNothing : Obligations.AbsentEventsChangeNothing := by
  unfold Obligations.AbsentEventsChangeNothing
  intro s
  refine ⟨exec_resetEnd_absent, exec_strapsSample_absent, fun h wait bytes cause => ?config, exec_holdResume_absent,
    exec_listeningExpiry_absent, fun h view slot w e we ee wb eb => ?unjoined, fun slot we ee wb eb h => ?slot,
    fun h => exec_coilCheck_absent (.inr h), fun h => ?mark, fun hlow hedges => ?low, exec_breakReleaseTimeout_absent,
    exec_filterTick_absent, fun h spell lost wait levels stop => ?off, exec_quietEnd_absent, fun h => ?hunting,
    fun h hedges => exec_noticeStart_absent hedges (.inl h), fun h hedges => ?sending, fun htx hbrk => ?silent,
    fun bit h => exec_collision_absent (.inr h), exec_receive_absent⟩
  case config => exact ⟨exec_configTransferComplete_absent h wait bytes, exec_configNoResponse_absent h cause⟩
  case unjoined =>
    exact ⟨exec_frameStart_absent h view, exec_transmitWindowEnd_absent h, exec_slotEnd_absent (.inl h) we ee wb eb,
      exec_coilCheck_absent (.inl h) w e⟩
  case slot => exact exec_slotEnd_absent (.inr h) we ee wb eb
  case mark => exact ⟨fun hedges => exec_markSend_absent hedges (.inl h), exec_markAbandon_absent h⟩
  case low =>
    exact ⟨exec_markSend_absent hedges (.inr hlow), exec_noticeStart_absent hedges (.inr hlow),
      exec_receiverIdleTimeout_absent hedges (.inr (.inl hlow))⟩
  case off => exact ⟨exec_breakRecognized_off h spell, exec_framingError_off h lost, exec_characterReceived_off h wait levels stop⟩
  case hunting => exact ⟨fun hedges => exec_receiverIdleTimeout_absent hedges (.inl h), exec_noticeInvalid_absent h⟩
  case sending => exact exec_receiverIdleTimeout_absent hedges (.inr (.inr (s.line.sends_iff.2 h)))
  case silent =>
    have hsends : s.line.sends = false := by
      rw [← Bool.not_eq_true, RowLine.sends_iff]
      rintro (h | ⟨hbreak, hlead⟩)
      · exact htx h
      · exact hlead (hbrk hbreak)
    exact ⟨exec_noticeSent_absent hsends, fun bit => exec_collision_absent (.inl hsends)⟩

end Sys2Proof.Machine
end

section
/-! CERTIFICATE. Every step keeps the start-up block, the cadence unit, the row line and the field driver in agreement (R1, R3, R6, R7, R9,
R19, R22, R101, R109, R113, R181): most works keep the modes as they are, a part that is off the line offers nothing, and only the resets,
the start sequence, the hold, the resume and the joining change the modes. -/

namespace Sys2Proof.Machine

/-! ### Work that keeps the modes -/

/-- The row line of a part that is off the line (R101, R109, R113). -/
def RowLine.Asleep (l : RowLine) : Prop := l.tx = .off ∧ l.rx = .off ∧ l.queue = []

/-- From `c` to `d` no frame begins and nothing joins: of what the modes read, a mark may end and the filter ticks may go on. -/
structure Cadence.Still (c d : Cadence) : Prop where
  join : d.join = c.join
  frameOut : d.frameOut = c.frameOut
  mark : c.mark = .absent → d.mark = .absent
  index : d.frameIdx = c.frameIdx
  filter : c.nextFilter % 32 = 0 → d.nextFilter % 32 = 0

/-- From `s` to `t` the modes are kept: a drive may end, and a row line that sleeps sleeps on. -/
structure ModesStill (s t : State) : Prop where
  state : t.startup.state = s.startup.state
  cadence : s.cadence.Still t.cadence
  running : t.field.running = s.field.running
  drive : t.field.drive = true → s.field.drive = true
  asleep : s.line.Asleep → t.line.Asleep

theorem Cadence.Still.refl (c : Cadence) : c.Still c := ⟨rfl, rfl, id, rfl, id⟩

theorem Cadence.Still.trans {c d e : Cadence} (h : c.Still d) (k : d.Still e) : c.Still e :=
  ⟨k.join.trans h.join, k.frameOut.trans h.frameOut, k.mark ∘ h.mark, k.index.trans h.index, k.filter ∘ h.filter⟩

theorem Cadence.sameButTime.still {c d : Cadence} (h : c.sameButTime d) : c.Still d := by
  unfold Cadence.sameButTime at h
  rw [h]
  exact ⟨rfl, rfl, id, rfl, id⟩

theorem ModesStill.refl (s : State) : ModesStill s s := ⟨rfl, .refl _, rfl, id, id⟩

theorem ModesStill.then {s t u : State} (h : ModesStill s t) (k : ModesStill t u) : ModesStill s u :=
  ⟨k.state.trans h.state, h.cadence.trans k.cadence, k.running.trans h.running, h.drive ∘ k.drive,
    k.asleep ∘ h.asleep⟩

theorem ModesStill.ite {s a b : State} {p : Prop} [Decidable p] (ha : p → ModesStill s a) (hb : ¬p → ModesStill s b) :
    ModesStill s (if p then a else b) := by
  split
  · exact ha ‹_›
  · exact hb ‹_›

theorem ModesStill.foldl {α : Type} {f : State → α → State} (hf : ∀ s a, ModesStill s (f s a)) :
    ∀ (l : List α) (s : State), ModesStill s (l.foldl f s)
  | [], s => .refl s
  | a :: l, s => (hf s a).then (ModesStill.foldl hf l _)

/-- From `s` to `t` the cadence unit keeps its modes. -/
def CadenceStill (s t : State) : Prop := s.cadence.Still t.cadence

theorem CadenceStill.refl (s : State) : CadenceStill s s := Cadence.Still.refl _

theorem CadenceStill.then {s t u : State} (h : CadenceStill s t) (k : CadenceStill t u) : CadenceStill s u := Cadence.Still.trans h k

/-- Work that does not reach the cadence unit. -/
theorem CadenceStill.of_frame {s t : State} {bs : List Block} (h : SameBut s bs t) (hb : .cadence ∉ bs) : CadenceStill s t := by
  unfold CadenceStill
  rw [h.blocks .cadence hb]
  exact Cadence.Still.refl _

/-- Modes that agree go on agreeing. -/
theorem ModesStill.agree {s t : State} (h : ModesStill s t) (k : s.ModesAgree) : t.ModesAgree where
  joined := by rw [h.state, h.cadence.join]; exact k.joined
  listening := by rw [h.state, h.cadence.join]; exact k.listening
  offLine hoff := by
    rw [h.state] at hoff
    exact h.asleep (k.offLine hoff)
  notJoined hjoin := by
    rw [h.cadence.join] at hjoin
    obtain ⟨hrunning, hdrive, hout, hmark⟩ := k.notJoined hjoin
    exact ⟨h.running.trans hrunning, Bool.eq_false_iff.2 fun hon => Bool.false_ne_true (hdrive.symm.trans (h.drive hon)),
      h.cadence.frameOut.trans hout, h.cadence.mark hmark⟩
  driven hon := h.running.trans (k.driven (h.drive hon))
  index := by rw [h.cadence.index]; exact k.index
  filter := h.cadence.filter k.filter

/-! ### The blocks that the modes do not read -/

/-- The blocks that the modes read. -/
abbrev modeBlocks : List Block := [.cadence, .field, .line, .startup]

/-- Work on blocks that the modes do not read. -/
theorem ModesStill.of_quiet {s t : State} {bs : List Block} (h : SameBut s bs t) (hb : ∀ b ∈ modeBlocks, b ∉ bs) : ModesStill s t := by
  have hcadence := h.blocks .cadence (hb _ (by decide))
  have hfield := h.blocks .field (hb _ (by decide))
  have hline := h.blocks .line (hb _ (by decide))
  have hstartup := h.blocks .startup (hb _ (by decide))
  exact ⟨by rw [hstartup], hcadence ▸ .refl _, by rw [hfield], by rw [hfield]; exact id, by rw [hline]; exact id⟩

/-- Work on the cadence unit, and on blocks that the modes do not read. -/
theorem ModesStill.of_cadence {s t : State} {bs : List Block} (h : SameBut s bs t) (hb : ∀ b ∈ [.field, .line, .startup], b ∉ bs)
    (hcadence : CadenceStill s t) : ModesStill s t := by
  have hfield := h.blocks .field (hb _ (by decide))
  have hline := h.blocks .line (hb _ (by decide))
  have hstartup := h.blocks .startup (hb _ (by decide))
  exact ⟨by rw [hstartup], hcadence, by rw [hfield], by rw [hfield]; exact id, by rw [hline]; exact id⟩

/-- Work on the row line of a part that is on the line, on the cadence unit, and on blocks that the modes do not read. -/
theorem ModesStill.of_awake {s t : State} {bs : List Block} (h : SameBut s bs t) (hb : ∀ b ∈ [.field, .startup], b ∉ bs)
    (hcadence : CadenceStill s t) (hawake : ¬s.line.Asleep) : ModesStill s t := by
  have hfield := h.blocks .field (hb _ (by decide))
  have hstartup := h.blocks .startup (hb _ (by decide))
  exact ⟨by rw [hstartup], hcadence, by rw [hfield], by rw [hfield]; exact id, fun hline => absurd hline hawake⟩

/-- Work on the row line that lets it sleep, and on blocks that the modes do not read. -/
theorem ModesStill.of_line {s t : State} {bs : List Block} (h : SameBut s bs t) (hb : ∀ b ∈ [.cadence, .field, .startup], b ∉ bs)
    (hline : s.line.Asleep → t.line.Asleep) : ModesStill s t := by
  have hcadence := h.blocks .cadence (hb _ (by decide))
  have hfield := h.blocks .field (hb _ (by decide))
  have hstartup := h.blocks .startup (hb _ (by decide))
  exact ⟨by rw [hstartup], hcadence ▸ .refl _, by rw [hfield], by rw [hfield]; exact id, hline⟩

/-! ### Offers -/

section Offers

variable (s : State)

/-- Off the line nothing is offered (R109). -/
theorem State.offer_modes (n : Notice) : ModesStill s (s.offer n) := by
  refine .of_line (s.offer_frame n) (by decide) fun hasleep => ?_
  rwa [State.offer, if_pos hasleep.1]

theorem State.offerAll_modes (ns : List Notice) : ModesStill s (s.offerAll ns) := .foldl State.offer_modes ns s

theorem State.withList_modes (l : List Adjudication) : ModesStill s (s.withList l) := .of_quiet (s.withList_frame l) (by decide)

theorem State.withAdj_modes (a : Adjudicator) : ModesStill s (s.withAdj a) := .of_quiet (s.withAdj_frame a) (by decide)

theorem State.withAlarm_modes (a : AlarmUnit) : ModesStill s (s.withAlarm a) := .of_quiet (s.withAlarm_frame a) (by decide)

theorem State.giveVerdict_modes (ties : Ties) (w : Adjudication) : ModesStill s (s.giveVerdict ties w) :=
  (s.offerAll_modes _).then ((State.withAdj_modes _ _).then (.of_quiet (State.withSightings_frame _ _) (by decide)))

theorem State.weighListed_modes (ties : Ties) (a : Adjudication) : ModesStill s (s.weighListed ties a) :=
  .ite (fun _ => s.withList_modes _) (fun _ => (s.withList_modes _).then (State.giveVerdict_modes _ _ _))

theorem State.dropReport_modes (ties : Ties) (n : Notice) : ModesStill s (s.dropReport ties n) := by
  unfold State.dropReport
  split
  · split
    · exact s.weighListed_modes ties _
    · exact .refl s
  · exact s.withList_modes _
  · exact .refl s

theorem State.takeReports_modes (ties : Ties) : ∀ (fuel : Nat) (s : State), ModesStill s (s.takeReports ties fuel)
  | 0, s => .refl s
  | fuel + 1, s => by
    unfold State.takeReports
    split
    · exact .refl s
    · case h_2 n rest _ =>
      have htaken : ModesStill s (s.withLine { s.line with dropped := rest }) := .of_line (s.withLine_frame _) (by decide) id
      exact htaken.then ((State.dropReport_modes _ _ _).then (State.takeReports_modes ties fuel _))

theorem State.finishOffers_modes (ties : Ties) : ModesStill s (s.finishOffers ties) := State.takeReports_modes ties _ s

/-! ### Settlement and opening -/

theorem State.changeLatch_modes (l : Latch) (c : LatchChange) : ModesStill s (s.changeLatch l c) :=
  (s.withAlarm_modes _).then (State.offer_modes _ _)

theorem State.raiseLatch_modes (c : AlarmClass) : ModesStill s (s.raiseLatch c) := by
  unfold State.raiseLatch
  split <;> exact s.changeLatch_modes _ _

theorem State.settle_modes (ties : Ties) (a : Adjudication) : ModesStill s (s.settle ties a) := by
  have hlists := fun l j => (s.offerAll_modes a.settlements).then ((ModesStill.of_quiet (State.withCarried_frame _ l) (by decide)).then
    (State.withAlarm_modes _ j))
  unfold State.settle
  dsimp only
  split
  · exact (hlists _ _).then (State.raiseLatch_modes _ _)
  · exact hlists _ _

theorem State.enterWeighed_modes (ties : Ties) (w : Adjudication) : ModesStill s (s.enterWeighed ties w) := by
  refine .ite (fun _ => s.withList_modes _) (fun _ => ?_)
  split
  · exact (s.withList_modes _).then (State.settle_modes _ _ _)
  · exact s.settle_modes ties w

theorem State.openAdjudication_modes (ties : Ties) (t : Trigger) (d : Direction) (a b : Stamp) :
    ModesStill s (s.openAdjudication ties t d a b) := by
  refine .ite (fun _ => .refl s) (fun _ => ?_)
  refine (s.withAdj_modes { s.adj with nextCall := s.adj.nextCall + 1 }).then (.then ?_ (State.finishOffers_modes _ _))
  refine .ite (fun _ => .ite (fun _ => .refl _) fun _ => ?_) (fun _ => (State.withList_modes _ _).then (State.offer_modes _ _))
  exact (State.giveVerdict_modes _ _ _).then (State.enterWeighed_modes _ _ _)

end Offers

/-! ### Time, and the row line -/

section Line

variable (s : State)

theorem State.advance_still (u : Nat) : CadenceStill s (s.advance u) := by
  obtain ⟨c, hc, htime⟩ := s.advance_cases u
  rw [hc]
  exact htime.still

theorem State.toMoment_still (m : Nat) : CadenceStill s (s.toMoment m) := s.advance_still _

theorem State.waitBits_still (n : Nat) : CadenceStill s (s.waitBits n) := s.advance_still _

theorem State.toOffset_modes (o : Nat) : ModesStill s (s.toOffset o) := .of_cadence (s.toOffset_frame o) (by decide) (s.advance_still _)

theorem State.advance_startup (u : Nat) : (s.advance u).startup = s.startup := (s.advance_frame u).blocks .startup (by decide)

theorem State.takeEdges_still (gap blind : Nat) : ∀ (edges : List Edge) (s : State), CadenceStill s (s.takeEdges gap blind edges)
  | [], s => .of_frame (s.withLine_frame _) (by decide)
  | e :: es, s => by
    unfold State.takeEdges
    split
    · have hedge : CadenceStill s (s.takeEdge e) := s.toMoment_still e.moment
      exact hedge.then (State.takeEdges_still gap blind es _)
    · exact .of_frame (s.withLine_frame _) (by decide)

theorem State.readEdges_still (gap blind : Nat) : CadenceStill s (s.readEdges gap blind) := by
  unfold State.readEdges
  split
  · exact .refl _
  · exact State.takeEdges_still _ _ _ s

/-- A receiver that is OFF watches no edge (R101). -/
theorem State.readEdges_modes (gap blind : Nat) : ModesStill s (s.readEdges gap blind) := by
  have hframe := s.readEdges_frame gap blind
  have hfield := hframe.blocks .field (by decide)
  refine ⟨by rw [hframe.blocks .startup (by decide)], s.readEdges_still gap blind, by rw [hfield], by rw [hfield]; exact id,
    fun hasleep => ?_⟩
  rwa [State.readEdges_off hasleep.2.1]

/-- A pending break is recorded, paired or discarded. -/
theorem State.withBreak_still (b : Option PendingBreak) : CadenceStill s (s.withCadence { s.cadence with pendingBreak := b }) :=
  ⟨rfl, rfl, id, rfl, id⟩

/-- A mark ends. -/
theorem State.withoutMark_still : CadenceStill s (s.withCadence { s.cadence with mark := .absent }) :=
  ⟨rfl, rfl, fun _ => rfl, rfl, id⟩

/-- The count begins anew, and so do the filter ticks (R3). -/
theorem State.restart_still : CadenceStill s (s.withCadence { s.cadence with clock := 0, nextFilter := 32 }) :=
  ⟨rfl, rfl, id, rfl, fun _ => Nat.mod_self 32⟩

theorem State.withLine_still (l : RowLine) : CadenceStill s (s.withLine l) := .of_frame (s.withLine_frame l) (by decide)

theorem State.startLead_still : CadenceStill s s.startLead := .of_frame s.startLead_frame (by decide)

theorem State.dropAssembly_still : CadenceStill s s.dropAssembly := s.withBreak_still _

theorem State.takeBreak_still : CadenceStill s s.takeBreak := s.withBreak_still _

theorem State.loseMark_still : CadenceStill s s.loseMark :=
  (s.toMoment_still _).then ((State.withLine_still _ _).then (State.withoutMark_still _))

theorem State.endOwnBreak_still (m : Nat) : CadenceStill s (s.endOwnBreak m) := by
  unfold State.endOwnBreak
  split
  · exact (s.toMoment_still _).then ((State.takeBreak_still _).then (.of_frame (State.awaitLead_frame _) (by decide)))
  · exact s.loseMark_still.then ((State.toMoment_still _ _).then (State.takeBreak_still _))

theorem State.collide_still (q : Queued) : CadenceStill s (s.collide q) := by
  unfold State.collide
  dsimp only
  split
  · exact (s.withLine_still _).then (State.withoutMark_still _)
  · exact s.withLine_still _

theorem State.sentReport_still (n : Notice) : CadenceStill s (s.sentReport n) := by
  unfold State.sentReport
  split
  · exact .of_frame (s.startDeadline_frame _) (by decide)
  · exact .of_frame (s.startHold_frame _) (by decide)
  · exact s.withoutMark_still.then (State.withBreak_still _ none)
  · exact .refl _

theorem State.discardOwn_still : CadenceStill s s.discardOwn := by
  unfold State.discardOwn
  split
  · exact s.dropAssembly_still
  · exact .refl _

theorem State.beginAssembly_still (b : Byte) : CadenceStill s (s.beginAssembly b) :=
  s.dropAssembly_still.then ((State.withLine_still _ _).then (State.withBreak_still _ _))

theorem State.takeCharacter_still (b : Byte) : CadenceStill s (s.takeCharacter b) := by
  unfold State.takeCharacter
  split
  · split
    · exact s.dropAssembly_still
    · exact s.withLine_still _
  · exact .refl _
  · exact .refl _

theorem State.takeOther_still (p : Nat) : CadenceStill s (s.takeOther p) :=
  s.dropAssembly_still.then (.of_frame (State.hearSender_frame _ p) (by decide))

end Line

/-- A sleeping part sends nothing. -/
theorem RowLine.Asleep.silent {l : RowLine} (hasleep : l.Asleep) : l.sends = false := by
  simp [RowLine.sends, hasleep.1]

/-- A sleeping part hears nothing. -/
theorem State.incoming_asleep {s : State} (hasleep : s.line.Asleep) : s.incoming = none := by
  simp [State.incoming, hasleep.2.1]

/-! ### The beams and the staff key -/

section Inputs

variable (s : State)

theorem State.takeClear_modes (entered : Bool) : ModesStill s (s.takeClear entered) :=
  .ite (fun _ => .ite (fun _ => s.changeLatch_modes _ _) (fun _ => .refl s)) (fun _ => .refl s)

theorem State.takePassage_modes (c : Option Completed) : ModesStill s (s.takePassage c) := by
  unfold State.takePassage
  split
  · exact .ite (fun _ => s.openAdjudication_modes _ _ _ _ _) (fun _ => .refl s)
  · exact .refl s

theorem State.acknowledge_modes : ModesStill s s.acknowledge := by
  have hset : ∀ u : State, ModesStill u u.acknowledgeSet := fun u => by
    unfold State.acknowledgeSet
    split
    · exact u.changeLatch_modes _ _
    · exact .ite (fun _ => .refl u) (fun _ => .ite (fun _ => u.changeLatch_modes _ _) (fun _ => u.changeLatch_modes _ _))
  exact .ite (fun _ => .refl s) (fun _ => (s.withAlarm_modes _).then (hset _))

theorem State.raiseRequest_modes (r : RunRequest) : ModesStill s (s.raiseRequest r) := ⟨rfl, .refl _, rfl, id, id⟩

/-- A key movement raises a request, and may acknowledge (R20, R162, R182). -/
theorem State.keyMoved_modes (a b : KeyPosition) : ModesStill s (s.keyMoved a b) := by
  have hack : ModesStill s s.keyToAck :=
    .ite (fun _ => s.acknowledge_modes.then (State.offer_modes _ _)) (fun _ => s.acknowledge_modes)
  refine ModesStill.then (.ite (fun _ => hack) (fun _ => .refl s)) (.ite (fun _ => ?_) (fun _ => .refl _))
  exact .ite (fun _ => State.raiseRequest_modes _ _) (fun _ => .ite (fun _ => State.raiseRequest_modes _ _) (fun _ => .refl _))

/-- The start-up block with another reading of the key. -/
theorem State.withStartup_modes {b : StartUp} (h : b.state = s.startup.state) : ModesStill s (s.withStartup b) :=
  ⟨h, .refl _, rfl, id, id⟩

theorem State.sampleKey_modes (raw : Option KeyPosition) : ModesStill s (s.sampleKey raw) := by
  refine .ite (fun _ => .ite (fun _ => ?_) (fun _ => ?_)) (fun _ => .refl s)
  · unfold State.nextKey
    split
    · exact s.withStartup_modes rfl
    · exact .ite (fun _ => s.withStartup_modes rfl) (fun _ => .ite
        (fun _ => (s.withStartup_modes (by rfl)).then (State.keyMoved_modes _ _ _)) (fun _ => s.withStartup_modes rfl))
  · exact (s.withStartup_modes (by rfl)).then (.ite (fun _ => State.raiseRequest_modes _ _) (fun _ => .refl _))

theorem State.keyAt_modes (place now : KeyPlace) (raw : Option KeyPosition) : ModesStill s (s.keyAt place now raw) :=
  .ite (fun _ => s.sampleKey_modes raw) (fun _ => .refl s)

theorem State.sampleInputs_modes (i o : Bool) (order : TickOrder) (raw : Option KeyPosition) :
    ModesStill s (s.sampleInputs i o order raw) := by
  have hevent : ∀ (u : State) (ev : LaneEvent), ModesStill u (u.takeLaneEvent ev order raw) := fun u ev => .ite
    (fun _ => (u.takeClear_modes _).then ((State.keyAt_modes _ _ _ _).then (State.takePassage_modes _ _)))
    (fun _ => (u.takePassage_modes _).then ((State.keyAt_modes _ _ _ _).then (State.takeClear_modes _ _)))
  exact (s.keyAt_modes _ _ _).then (((ModesStill.of_quiet (State.withLane_frame _ _) (by decide)).then (hevent _ _)).then
    (State.keyAt_modes _ _ _ _))

theorem State.toFilterTick_modes : ModesStill s s.toFilterTick := by
  have htime : CadenceStill s (s.toTick s.cadence.nextFilter) := s.advance_still _
  refine .of_cadence s.toFilterTick_frame (by decide) ⟨htime.join, htime.frameOut, htime.mark, htime.index, fun h => ?_⟩
  have hnext := htime.filter h
  change ((s.toTick s.cadence.nextFilter).cadence.nextFilter + 32) % 32 = 0
  omega

end Inputs

theorem Stamp.next_index_lt (st : Stamp) : st.next.index < 25 := by
  unfold Stamp.next
  split
  · exact Nat.succ_lt_succ ‹_›
  · exact Nat.zero_lt_succ 24

/-! ### While JOINED -/

/-- What the modes ask of a part that is JOINED. -/
structure State.JoinedAgree (s : State) : Prop where
  state : s.startup.state = .joined
  join : s.cadence.join = .joined
  driven : s.field.drive = true → s.field.running = true
  index : s.cadence.frameIdx < 25
  filter : s.cadence.nextFilter % 32 = 0

theorem State.JoinedAgree.agree {s : State} (h : s.JoinedAgree) : s.ModesAgree where
  joined := by simp [h.state, h.join]
  listening := by simp [h.state, h.join]
  offLine hoff := by simp [h.state, StartState.onLine] at hoff
  notJoined hjoin := absurd h.join hjoin
  driven := h.driven
  index := h.index
  filter := h.filter

theorem State.ModesAgree.joinedAgree {s : State} (h : s.ModesAgree) (hjoin : s.cadence.join = .joined) : s.JoinedAgree :=
  ⟨h.joined.2 hjoin, hjoin, h.driven, h.index, h.filter⟩

section Joined

variable {s : State} (h : s.JoinedAgree)
include h

/-- A frame that begins is driven only when the field runs (R22). -/
theorem State.JoinedAgree.frameStartEvent {st : Stamp} (hst : st.index < 25) (off at0 : Nat) (adopted : Bool) (view : StatusView) :
    (s.frameStartEvent st off at0 adopted view).JoinedAgree := by
  refine ⟨?_, ?_, ?_, ?_, ?_⟩
  · rw [State.frameStartEvent_startup]
    exact h.state
  · rw [State.frameStartEvent_cadence]
    exact h.join
  · rw [State.frameStartEvent_field]
    exact fun hdrive => (Bool.and_eq_true_iff.1 hdrive).1
  · rw [State.frameStartEvent_cadence]
    exact hst
  · rw [State.frameStartEvent_cadence]
    exact h.filter

theorem State.JoinedAgree.still {t : State} (ht : ModesStill s t) : t.JoinedAgree :=
  (ht.agree h.agree).joinedAgree (ht.cadence.join.trans h.join)

theorem State.JoinedAgree.numberChanged : s.numberChanged.JoinedAgree := by
  have hframe := s.numberChanged_frame
  have hcadence := hframe.blocks .cadence (by decide)
  have hfield := hframe.blocks .field (by decide)
  have hstartup := hframe.blocks .startup (by decide)
  exact ⟨by rw [hstartup]; exact h.state, by rw [hcadence]; exact h.join, by rw [hfield]; exact h.driven,
    by rw [hcadence]; exact h.index, by rw [hcadence]; exact h.filter⟩

/-- A CADENCE that is adopted moves the phase, or begins a new frame 0 (R14 to R16). -/
theorem State.JoinedAgree.phaseAction (b : PendingBreak) (n m : BitVec 16) (d : Byte) (e dd : Int) :
    (s.phaseAction b n m d e dd).JoinedAgree := by
  have hnumber : ∀ c : Cadence, c.join = .joined → c.frameIdx < 25 → c.nextFilter % 32 = 0 →
      (s.withCadence (c.renumber n m)).JoinedAgree := fun c hjoin hindex hfilter => by
    unfold Cadence.renumber
    split <;> exact ⟨h.state, hjoin, h.driven, hindex, hfilter⟩
  have hstopped : (s.withField { s.field with drive := false }).JoinedAgree := ⟨h.state, h.join, nofun, h.index, h.filter⟩
  unfold State.phaseAction
  dsimp only
  split_ifs
  · exact hnumber _ h.join h.index h.filter
  · exact h.frameStartEvent (st := ⟨n, 0⟩) (Nat.zero_lt_succ 24) _ _ _ _
  · exact hnumber _ h.join h.index h.filter
  · exact hnumber _ h.join h.index h.filter
  · exact hstopped.frameStartEvent (st := ⟨n, 0⟩) (Nat.zero_lt_succ 24) _ _ _ _

theorem State.JoinedAgree.judgeCadence (b : PendingBreak) (n : BitVec 16) (d : Byte) : (s.judgeCadence b n d).JoinedAgree := by
  have hqualified : (s.withCadence { s.cadence with lastQualifying := some s.freeRun, selfLed := false }).JoinedAgree :=
    ⟨h.state, h.join, h.driven, h.index, h.filter⟩
  unfold State.judgeCadence
  dsimp only
  split_ifs
  · exact hqualified.phaseAction _ _ _ _ _ _
  · exact (hqualified.phaseAction _ _ _ _ _ _).numberChanged
  · exact h

end Joined

/-- Whatever the modes were, a part that joins at a frame 0 is JOINED (R8). -/
theorem State.joinAt_agree {s : State} (hfilter : s.cadence.nextFilter % 32 = 0) (n : BitVec 16) (off : Nat) (adopted : Bool) :
    (s.joinAt n off adopted).ModesAgree := by
  refine State.JoinedAgree.agree ⟨?_, ?_, ?_, ?_, ?_⟩
  · rw [State.joinAt_startup]
  · rw [State.joinAt_cadence]
    rfl
  · rw [State.joinAt_field]
    exact fun hdrive => (Bool.and_eq_true_iff.1 hdrive).1
  · rw [State.joinAt_cadence]
    exact Nat.zero_lt_succ _
  · rw [State.joinAt_cadence]
    exact hfilter

/-- At rest (Table 1-2, R19, R113, R176). -/
theorem State.reset_agree : State.reset.ModesAgree :=
  ⟨by decide, by decide, fun _ => ⟨rfl, rfl, rfl⟩, fun _ => ⟨rfl, rfl, rfl, rfl⟩, nofun, by decide, by decide⟩

/-! ### The commands -/

/-- The command answers a next state whose modes agree. -/
def LandsAgreeing (c : Instr) (s : State) : Prop := ∃ t, exec c s = .next t ∧ t.ModesAgree

section Commands

variable {s : State} (h : s.ModesAgree)
include h

/-- A command that reaches no block that the modes read. -/
theorem lands_agreeing_of_mayChange {c : Instr} (hc : ∀ b ∈ modeBlocks, b ∉ mayChange c) : LandsAgreeing c s := by
  obtain ⟨t, hexec, hframe⟩ := moves_mayChange c s
  exact ⟨t, hexec, (ModesStill.of_quiet hframe hc).agree h⟩

/-- A part that is off the line goes on to another state off the line. -/
theorem State.ModesAgree.withStartup (hoff : s.startup.state.onLine = false) {b : StartUp} (hb : b.state.onLine = false) :
    (s.withStartup b).ModesAgree := by
  have hother : ∀ x y : StartState, x.onLine = false → y.onLine = true → x ≠ y := fun x y hx hy heq => by
    rw [heq, hy] at hx
    cases hx
  exact ⟨iff_of_false (hother _ _ hb rfl) (h.joined.not.1 (hother _ _ hoff rfl)),
    iff_of_false (hother _ _ hb rfl) (h.listening.not.1 (hother _ _ hoff rfl)), fun _ => h.offLine hoff, h.notJoined, h.driven,
    h.index, h.filter⟩

/-- A part that was off the line begins to listen (R7, R181). -/
theorem State.ModesAgree.beginListening (hoff : s.startup.state.onLine = false) (fromHold : Bool) :
    (s.beginListening fromHold).ModesAgree where
  joined := by simp [State.beginListening]
  listening := by simp [State.beginListening]
  offLine := nofun
  notJoined _ := h.notJoined fun hjoin => by simp [h.joined.2 hjoin, StartState.onLine] at hoff
  driven := h.driven
  index := h.index
  filter := h.filter

/-! ### Start-up and supply -/

theorem exec_resetEnd_lands_agreeing : LandsAgreeing .resetEnd s := by
  refine ⟨_, rfl, ?_⟩
  split_ifs with hstate
  · have hstraps := h.withStartup (b := { s.startup with state := .straps, supply := .aboveHold }) (by rw [hstate]; rfl) rfl
    exact ModesStill.agree (.of_cadence (State.withCadence_frame _ _) (by decide) (State.restart_still _)) hstraps
  · exact h

theorem State.ModesAgree.advance (u : Nat) : (s.advance u).ModesAgree :=
  ModesStill.agree (.of_cadence (s.advance_frame u) (by decide) (s.advance_still u)) h

theorem State.ModesAgree.toTick (tick : Nat) : (s.toTick tick).ModesAgree := h.advance _

theorem exec_strapsSample_lands_agreeing (pins : BitVec 4) (low : Bool) : LandsAgreeing (.strapsSample pins low) s := by
  refine ⟨_, rfl, ?_⟩
  split_ifs with hstate
  · have hoff : (s.toTick 48).startup.state.onLine = false := by
      rw [State.toTick, State.toMoment, State.advance_startup, hstate]
      rfl
    unfold State.takeStraps
    split_ifs <;> exact State.ModesAgree.withStartup (h.toTick 48) hoff rfl
  · exact h

/-- CONFIG ends, whenever it does, with the part listening (R180, R181). -/
theorem State.ModesAgree.finishConfig (hstate : s.startup.state = .config) (u : Nat) (image : Option Settings) (acts : List PortAct) :
    ((s.advance u).finishConfig image acts).ModesAgree := by
  have hoff : (s.advance u).startup.state.onLine = false := by
    rw [State.advance_startup, hstate]
    rfl
  exact State.ModesAgree.beginListening ((h.advance u).withStartup hoff (by exact hoff)) (by exact hoff) false

theorem exec_configTransferComplete_lands_agreeing (wait : Nat) (bytes : List Byte) :
    LandsAgreeing (.configTransferComplete wait bytes) s := by
  refine ⟨_, rfl, ?_⟩
  split_ifs with hstate
  · exact h.finishConfig hstate _ _ _
  · exact h.finishConfig hstate _ _ _
  · exact h

theorem exec_configNoResponse_lands_agreeing (cause : NoResponse) : LandsAgreeing (.configNoResponse cause) s := by
  refine ⟨_, rfl, ?_⟩
  split_ifs with hstate
  · unfold State.toNoResponse
    split
    · split_ifs <;> exact h.finishConfig hstate _ _ _
    · exact h.finishConfig hstate _ _ _
  · exact h

theorem exec_supplyHold_lands_agreeing (wait : Nat) : LandsAgreeing (.supplyHold wait) s := by
  refine ⟨_, rfl, ?_⟩
  split
  · have hwaited := h.advance (wait * Config.unitsPerBit)
    exact ⟨by simp [State.enterHold, Cadence.enterHold], by simp [State.enterHold, Cadence.enterHold], fun _ => ⟨rfl, rfl, rfl⟩,
      fun _ => ⟨rfl, rfl, rfl, rfl⟩, nofun, hwaited.index, hwaited.filter⟩
  · split_ifs
    · exact ModesStill.agree (s.withStartup_modes (by rfl)) h
    · exact h

theorem exec_holdResume_lands_agreeing : LandsAgreeing .holdResume s := by
  refine ⟨_, rfl, ?_⟩
  split_ifs with hstate
  · have hoff : s.resume.startup.state.onLine = false := by
      change s.startup.state.onLine = false
      rw [hstate]
      rfl
    have hstill : ModesStill s s.resume := ⟨rfl, s.restart_still, rfl, id, id⟩
    have hresumed := hstill.agree h
    split
    · exact hresumed.withStartup hoff rfl
    · exact hresumed.withStartup hoff rfl
    · exact hresumed.beginListening hoff true
    · exact h
  · exact h

theorem exec_listeningExpiry_lands_agreeing : LandsAgreeing .listeningExpiry s := by
  have hself : ∀ (u : State) (n : BitVec 16), u.ModesAgree →
      ((u.withCadence { u.cadence.carryBreak n with selfLed := true }).joinAt n 0 false).ModesAgree := fun u n hu =>
    State.joinAt_agree (by exact hu.filter) n 0 false
  refine ⟨_, rfl, ?_⟩
  dsimp only
  split_ifs
  · exact hself _ _ (h.toTick _)
  · exact h

/-! ### Frames, slots and sensors -/

theorem exec_frameStart_lands_agreeing (view : StatusView) : LandsAgreeing (.frameStart view) s := by
  refine ⟨_, rfl, ?_⟩
  dsimp only
  split_ifs with hjoined
  · have hreached := (h.joinedAgree (s.isJoined_iff.1 hjoined)).still (s.toOffset_modes (frameLength s.cadence.frameIdx))
    exact ModesStill.agree (State.finishOffers_modes _ _)
      (hreached.frameStartEvent (Stamp.next_index_lt _) _ _ _ _).agree
  · exact h

theorem exec_transmitWindowEnd_lands_agreeing : LandsAgreeing .transmitWindowEnd s := by
  refine ⟨_, rfl, ?_⟩
  dsimp only
  split_ifs
  · exact ModesStill.agree ((s.toOffset_modes 320).then ⟨rfl, .refl _, rfl, nofun, id⟩) h
  · exact h

theorem exec_slotEnd_lands_agreeing (slot : Nat) (we ee : List Nat) (wb eb : List (List Bool)) :
    LandsAgreeing (.slotEnd slot we ee wb eb) s := by
  refine ⟨_, rfl, ?_⟩
  dsimp only
  split_ifs
  · have hended : ∀ u : State, ModesStill u (u.withCadence { u.cadence with slotsEnded := slot + 1 }) := fun u =>
      .of_cadence (u.withCadence_frame _) (by decide) ⟨rfl, rfl, id, rfl, id⟩
    exact ModesStill.agree ((s.toOffset_modes _).then ((hended _).then (.of_quiet (State.takeSlot_frame _ _ _) (by decide)))) h
  · exact h

theorem exec_coilCheck_lands_agreeing (w e : Nat) : LandsAgreeing (.coilCheck w e) s := by
  refine ⟨_, rfl, ?_⟩
  dsimp only
  split_ifs
  · have hchecked : ∀ u : State, ModesStill u (u.withCadence { u.cadence with coilChecked := true }) := fun u =>
      .of_cadence (u.withCadence_frame _) (by decide) ⟨rfl, rfl, id, rfl, id⟩
    exact ModesStill.agree ((s.toOffset_modes _).then ((hchecked _).then (.of_quiet (State.withSampler_frame _ _) (by decide)))) h
  · exact h

theorem exec_filterTick_lands_agreeing (i o a v : Bool) (order : TickOrder) : LandsAgreeing (.filterTick i o a v order) s := by
  refine ⟨_, rfl, ModesStill.agree (.ite (fun _ => ?_) (fun _ => .refl s)) h⟩
  exact .ite (fun _ => s.toFilterTick_modes.then ((State.sampleInputs_modes _ _ _ _ _).then (State.finishOffers_modes _ _)))
    (fun _ => s.toFilterTick_modes)

/-! ### What a frame start makes due -/

theorem exec_recordFade_lands_agreeing (ties : Ties) : LandsAgreeing (.recordFade ties) s := by
  have hfaded : ModesStill s (s.withSightings (fadeRecords s.stamp s.sightings)) := .of_quiet (s.withSightings_frame _) (by decide)
  exact ⟨_, rfl, ModesStill.agree (.ite
    (fun _ => hfaded.then (.foldl (fun u r => u.openAdjudication_modes ties _ _ _ _) _ _)) (fun _ => hfaded)) h⟩

theorem exec_evidenceDeadline_lands_agreeing (ties : Ties) : LandsAgreeing (.evidenceDeadline ties) s := by
  have hweigh : ∀ (u : State) (id : Byte), ModesStill u (u.weighId ties id) := fun u id => by
    unfold State.weighId
    split
    · exact u.weighListed_modes ties _
    · exact .refl u
  exact ⟨_, rfl, ModesStill.agree ((ModesStill.foldl hweigh _ s).then (State.finishOffers_modes _ _)) h⟩

theorem exec_holdExpiry_lands_agreeing (ties : Ties) : LandsAgreeing (.holdExpiry ties) s := by
  have hsettle : ∀ (u : State) (a : Adjudication), ModesStill u (u.settleListed ties a) := fun u a =>
    (u.withList_modes _).then (State.settle_modes _ _ _)
  exact ⟨_, rfl, ModesStill.agree ((ModesStill.foldl hsettle _ s).then (State.finishOffers_modes _ _)) h⟩

/-! ### Marks and breaks -/

/-- A mark waits while JOINED only, and so does its sending begin (R6, R10). -/
theorem exec_markSend_lands_agreeing : LandsAgreeing .markSend s := by
  have hread := (s.readEdges_modes 12 Config.unitsPerBit).agree h
  refine ⟨_, rfl, ?_⟩
  dsimp only
  split_ifs with hwaits
  · obtain ⟨hmark, -⟩ := (State.markWaits_iff _).1 hwaits
    have hjoin : (s.readEdges 12 Config.unitsPerBit).cadence.join = .joined := by
      by_contra hjoin
      obtain ⟨-, -, -, hnone⟩ := hread.notJoined hjoin
      rw [hnone] at hmark
      cases hmark
    have hbegun : ∀ u : State, u.JoinedAgree → u.beginMark.JoinedAgree := fun u hu =>
      ⟨hu.state, hu.join, hu.driven, hu.index, hu.filter⟩
    have hreached : ∀ m, ModesStill (s.readEdges 12 Config.unitsPerBit) ((s.readEdges 12 Config.unitsPerBit).toMoment m) := fun m =>
      .of_cadence (State.toMoment_frame _ m) (by decide) (State.advance_still _ _)
    exact ((hbegun _ ((hread.joinedAgree hjoin).still (hreached _))).still (State.finishOffers_modes _ _)).agree
  · exact hread
  · exact hread

theorem exec_markAbandon_lands_agreeing : LandsAgreeing .markAbandon s := by
  have habandoned : ∀ u : State, ModesStill u (u.withCadence { u.cadence with mark := .absent }) := fun u =>
    .of_cadence (u.withCadence_frame _) (by decide) u.withoutMark_still
  refine ⟨_, rfl, ModesStill.agree (.ite (fun _ => ?_) (fun _ => .refl s)) h⟩
  exact ModesStill.then (.ite (fun _ => s.toOffset_modes 256) (fun _ => .refl s)) (habandoned _)

/-- A command that a sleeping row line leaves without effect. -/
theorem lands_agreeing_of_awake {c : Instr} (hc : ∀ b ∈ [.field, .startup], b ∉ mayChange c)
    (habsent : s.line.Asleep → exec c s = .next s) {t : State} (hexec : exec c s = .next t) (hstill : CadenceStill s t) :
    LandsAgreeing c s := by
  by_cases hasleep : s.line.Asleep
  · exact ⟨s, habsent hasleep, h⟩
  · obtain ⟨u, hmoved, hframe⟩ := moves_mayChange c s
    obtain rfl := Host.Outcome.next.inj (hexec.symm.trans hmoved)
    exact ⟨t, hexec, (ModesStill.of_awake hframe hc hstill hasleep).agree h⟩

theorem exec_breakReleaseTimeout_lands_agreeing : LandsAgreeing .breakReleaseTimeout s := by
  refine lands_agreeing_of_awake h (by decide) (fun hasleep => exec_breakReleaseTimeout_absent fun hbreak => ?_) rfl ?_
  · exact absurd (hasleep.1.symm.trans hbreak.1) (by decide)
  · split_ifs
    · exact s.loseMark_still
    · exact .refl _

theorem exec_breakRecognized_lands_agreeing (spell : LowSpell) : LandsAgreeing (.breakRecognized spell) s := by
  refine lands_agreeing_of_awake h (by simp [mayChange]) (fun hasleep => exec_breakRecognized_off hasleep.2.1 spell) rfl ?_
  split_ifs
  · exact .refl _
  · exact s.endOwnBreak_still _
  · exact (s.waitBits_still _).then ((State.startLead_still _).then (State.takeBreak_still _))
  · exact .refl _

theorem exec_quietEnd_lands_agreeing : LandsAgreeing .quietEnd s := by
  refine ⟨_, rfl, ModesStill.agree ?_ h⟩
  split
  · have hended : ∀ u : State, ModesStill u (u.withLine { u.line with quietFrom := none }) := fun u =>
      .of_line (u.withLine_frame _) (by decide) id
    exact ModesStill.then (.of_cadence (s.toMoment_frame _) (by decide) (s.advance_still _)) (hended _)
  · exact .refl s

/-! ### The receiver -/

theorem exec_framingError_lands_agreeing (lost : LostCharacter) : LandsAgreeing (.framingError lost) s := by
  refine lands_agreeing_of_awake h (by simp [mayChange]) (fun hasleep => exec_framingError_off hasleep.2.1 lost) rfl ?_
  split_ifs
  · exact .refl _
  · exact (s.waitBits_still _).then ((State.dropAssembly_still _).then ((State.withBreak_still _ none).then (State.withLine_still _ _)))

theorem exec_receiverIdleTimeout_lands_agreeing : LandsAgreeing .receiverIdleTimeout s := by
  refine lands_agreeing_of_awake h (by decide) (fun hasleep => ?_) rfl ?_
  · change execReceiverIdleTimeout s = _
    simp only [execReceiverIdleTimeout, State.readEdges_off hasleep.2.1, hasleep.2.1]
  · refine (s.readEdges_still 11 1).then ?_
    dsimp only
    split
    · split_ifs
      · exact .refl _
      · exact (State.toMoment_still _ _).then (State.dropAssembly_still _)
    · exact .refl _

theorem exec_noticeInvalid_lands_agreeing : LandsAgreeing .noticeInvalid s := by
  refine lands_agreeing_of_awake h (by decide) (fun hasleep => exec_noticeInvalid_absent ?_) rfl ?_
  · simp [hasleep.2.1]
  · split
    · split_ifs
      · exact s.dropAssembly_still
      · exact .refl _
    · exact .refl _
    · exact .refl _

theorem exec_characterReceived_lands_agreeing (wait : Nat) (levels : BitVec 10) (stop : Bool) :
    LandsAgreeing (.characterReceived wait levels stop) s := by
  refine lands_agreeing_of_awake h (by simp [mayChange]) (fun hasleep => exec_characterReceived_off hasleep.2.1 _ _ _) rfl ?_
  split_ifs
  · exact .refl _
  · split
    · have hlead := (s.waitBits_still wait).then (State.startLead_still _)
      split_ifs
      · exact hlead.then ((State.withLine_still _ _).then (State.beginAssembly_still _ _))
      · exact hlead.then ((State.withLine_still _ _).then (State.takeCharacter_still _ _))
    · exact .refl _
    · exact .refl _

/-! ### Sending -/

theorem exec_noticeStart_lands_agreeing : LandsAgreeing .noticeStart s := by
  refine lands_agreeing_of_awake h (by decide) (fun hasleep => ?_) rfl ?_
  · exact exec_noticeStart_held (State.readEdges_off hasleep.2.1 _ _).symm fun hstart =>
      absurd (hasleep.1.symm.trans hstart.1) (by decide)
  · refine (s.readEdges_still s.idleGap Config.unitsPerBit).then ?_
    dsimp only
    split_ifs
    · split
      · exact (State.toMoment_still _ _).then (State.withLine_still _ _)
      · exact .refl _
    · exact .refl _

theorem exec_collision_lands_agreeing (bit : Nat) : LandsAgreeing (.collision bit) s := by
  refine lands_agreeing_of_awake h (by simp [mayChange]) (fun hasleep => exec_collision_absent (.inl hasleep.silent)) rfl ?_
  split
  · rw [State.startLead_collide]
    exact (s.toMoment_still _).then ((State.collide_still _ _).then (.of_frame (State.finishOffers_frame _ _) (by decide)))
  · exact .refl _

theorem exec_noticeSent_lands_agreeing : LandsAgreeing .noticeSent s := by
  refine lands_agreeing_of_awake h (by decide) (fun hasleep => exec_noticeSent_absent hasleep.silent) rfl ?_
  split
  · exact (s.toMoment_still _).then ((State.startLead_still _).then ((State.withLine_still _ _).then ((State.discardOwn_still _).then
      ((State.sentReport_still _ _).then (.of_frame (State.finishOffers_frame _ _) (by decide))))))
  · exact .refl _

/-! ### Notices heard -/

theorem exec_receiveCadence_lands_agreeing : LandsAgreeing .receiveCadence s := by
  refine ⟨_, rfl, ?_⟩
  split
  case h_2 => exact h
  case h_1 p n d _ _ hincoming =>
    refine ModesStill.agree (State.finishOffers_modes _ _) ?_
    have htaken : ModesStill s (s.takeNotice p) := .of_awake (s.takeNotice_frame p) (by decide)
      (.of_frame (s.takeNotice_frame p) (by decide)) fun hasleep => by simp [State.incoming_asleep hasleep] at hincoming
    have hheard := htaken.agree h
    have hdropped : ∀ u : State, ModesStill u u.dropBreak := fun u =>
      .of_cadence u.dropBreak_frame (by decide) (u.withBreak_still none)
    unfold State.hearCadence
    split
    · unfold State.adoptListening
      have hrecorded : ∀ u : State, u.ModesAgree → (u.withCadence { u.cadence with
          lastQualifying := some u.freeRun, selfLed := false, pendingBreak := none }).cadence.nextFilter % 32 = 0 := fun _ hu => hu.filter
      refine State.joinAt_agree ?_ _ _ _
      split_ifs
      · exact hrecorded _ hheard
      · rw [(State.numberChanged_frame _).blocks .cadence (by decide)]
        exact hrecorded _ hheard
    case h_2 b _ hjoin => exact (((hheard.joinedAgree hjoin).still (hdropped _)).judgeCadence _ _ _).agree
    · exact (hdropped _).agree hheard

/-- A notice of another kind drops the break paired with it, and its effects reach no other mode than the queue. -/
theorem lands_agreeing_of_heard {c : Instr} (hc : ∀ b ∈ [.field, .startup], b ∉ mayChange c) (hreceive : c ∈ [Instr.receiveCadence,
    .receiveStatus, .receiveCall, .receiveEvidence, .receiveVerdict, .receiveSettlement, .receiveAlarm, .receiveAck,
    .receiveJournalCall, .receiveJournal]) {t : State} (hexec : exec c s = .next t) (hstill : CadenceStill s t) : LandsAgreeing c s :=
  lands_agreeing_of_awake h hc (fun hasleep => exec_receive_absent (State.incoming_asleep hasleep) c hreceive) hexec hstill

theorem exec_receiveStatus_lands_agreeing : LandsAgreeing .receiveStatus s := by
  refine lands_agreeing_of_heard h (by decide) (by simp) rfl ?_
  split
  · exact (s.takeOther_still _).then (.of_frame (State.takeStatus_frame _ _ _ _ _) (by decide))
  · exact .refl s

theorem exec_receiveCall_lands_agreeing : LandsAgreeing .receiveCall s := by
  refine lands_agreeing_of_heard h (by decide) (by simp) rfl ?_
  split
  · dsimp only
    split_ifs
    · exact (s.takeOther_still _).then (.then (.of_frame (State.offerAll_frame _ _) (by decide))
        (.of_frame (State.finishOffers_frame _ _) (by decide)))
    · exact s.takeOther_still _
  · exact .refl s

theorem exec_receiveEvidence_lands_agreeing : LandsAgreeing .receiveEvidence s := by
  refine lands_agreeing_of_heard h (by decide) (by simp) rfl ?_
  split
  · dsimp only
    split_ifs
    · exact (s.takeOther_still _).then (.then (.of_frame (State.takeEvidence_frame _ _ _ _ _) (by decide))
        (.of_frame (State.finishOffers_frame _ _) (by decide)))
    · exact s.takeOther_still _
  · exact .refl s

theorem exec_receiveVerdict_lands_agreeing : LandsAgreeing .receiveVerdict s := by
  refine lands_agreeing_of_heard h (by decide) (by simp) rfl ?_
  split
  · exact (s.takeOther_still _).then (.of_frame (State.takeVerdict_frame _ _ _ _) (by decide))
  · exact .refl s

theorem exec_receiveSettlement_lands_agreeing : LandsAgreeing .receiveSettlement s := by
  refine lands_agreeing_of_heard h (by decide) (by simp) rfl ?_
  split
  · exact (s.takeOther_still _).then (.of_frame (State.withCarried_frame _ _) (by decide))
  · exact .refl s

theorem exec_receiveAlarm_lands_agreeing : LandsAgreeing .receiveAlarm s := by
  refine lands_agreeing_of_heard h (by decide) (by simp) rfl ?_
  split
  · exact (s.takeOther_still _).then (.of_frame (State.takeAlarm_frame _ _ _ _ _) (by decide))
  · exact .refl s

theorem exec_receiveAck_lands_agreeing : LandsAgreeing .receiveAck s := by
  refine lands_agreeing_of_heard h (by decide) (by simp) rfl ?_
  split
  · dsimp only
    split_ifs
    · exact (s.takeOther_still _).then (.then (.of_frame (State.acknowledge_frame _) (by decide))
        (.of_frame (State.finishOffers_frame _ _) (by decide)))
    · exact s.takeOther_still _
  · exact .refl s

theorem exec_receiveJournalCall_lands_agreeing : LandsAgreeing .receiveJournalCall s := by
  refine lands_agreeing_of_heard h (by decide) (by simp) rfl ?_
  split
  · dsimp only
    split_ifs
    · exact (s.takeOther_still _).then (.then (.of_frame (State.answerJournal_frame _ _) (by decide))
        (.of_frame (State.finishOffers_frame _ _) (by decide)))
    · exact s.takeOther_still _
  · exact .refl s

theorem exec_receiveJournal_lands_agreeing : LandsAgreeing .receiveJournal s := by
  refine lands_agreeing_of_heard h (by decide) (by simp) rfl ?_
  split
  · exact s.takeOther_still _
  · exact .refl s

theorem exec_lands_agreeing (c : Instr) : LandsAgreeing c s := by
  cases c with
  | powerOnReset => exact ⟨_, rfl, ModesStill.agree (s := State.reset) ⟨rfl, .refl _, rfl, id, id⟩ State.reset_agree⟩
  | serviceReset => exact ⟨_, rfl, ModesStill.agree (s := State.reset) ⟨rfl, .refl _, rfl, id, id⟩ State.reset_agree⟩
  | resetEnd => exact exec_resetEnd_lands_agreeing h
  | strapsSample p r => exact exec_strapsSample_lands_agreeing h p r
  | configTransferComplete w b => exact exec_configTransferComplete_lands_agreeing h w b
  | configNoResponse k => exact exec_configNoResponse_lands_agreeing h k
  | supplyHold w => exact exec_supplyHold_lands_agreeing h w
  | holdResume => exact exec_holdResume_lands_agreeing h
  | listeningExpiry => exact exec_listeningExpiry_lands_agreeing h
  | frameStart v => exact exec_frameStart_lands_agreeing h v
  | markSend => exact exec_markSend_lands_agreeing h
  | markAbandon => exact exec_markAbandon_lands_agreeing h
  | breakReleaseTimeout => exact exec_breakReleaseTimeout_lands_agreeing h
  | transmitWindowEnd => exact exec_transmitWindowEnd_lands_agreeing h
  | slotEnd j w e x y => exact exec_slotEnd_lands_agreeing h j w e x y
  | coilCheck w e => exact exec_coilCheck_lands_agreeing h w e
  | recordFade x => exact exec_recordFade_lands_agreeing h x
  | filterTick i o a k r => exact exec_filterTick_lands_agreeing h i o a k r
  | breakRecognized l => exact exec_breakRecognized_lands_agreeing h l
  | quietEnd => exact exec_quietEnd_lands_agreeing h
  | framingError l => exact exec_framingError_lands_agreeing h l
  | receiverIdleTimeout => exact exec_receiverIdleTimeout_lands_agreeing h
  | noticeStart => exact exec_noticeStart_lands_agreeing h
  | collision b => exact exec_collision_lands_agreeing h b
  | noticeSent => exact exec_noticeSent_lands_agreeing h
  | noticeInvalid => exact exec_noticeInvalid_lands_agreeing h
  | receiveCadence => exact exec_receiveCadence_lands_agreeing h
  | receiveStatus => exact exec_receiveStatus_lands_agreeing h
  | receiveCall => exact exec_receiveCall_lands_agreeing h
  | receiveEvidence => exact exec_receiveEvidence_lands_agreeing h
  | evidenceDeadline x => exact exec_evidenceDeadline_lands_agreeing h x
  | receiveVerdict => exact exec_receiveVerdict_lands_agreeing h
  | holdExpiry x => exact exec_holdExpiry_lands_agreeing h x
  | receiveSettlement => exact exec_receiveSettlement_lands_agreeing h
  | receiveAlarm => exact exec_receiveAlarm_lands_agreeing h
  | receiveAck => exact exec_receiveAck_lands_agreeing h
  | receiveJournalCall => exact exec_receiveJournalCall_lands_agreeing h
  | receiveJournal => exact exec_receiveJournal_lands_agreeing h
  | recordAgeFree | strayMark | beamStuck | neighbourAbsent | lineSilent | clashClear | claimExpiry | carriedInExpiry =>
    exact lands_agreeing_of_mayChange h (by decide)
  | characterReceived w v k => exact exec_characterReceived_lands_agreeing h w v k

end Commands

/-- Settles O6: a step runs the front command on the state with the rest of the queue, whose modes are the same. -/
theorem modesKept : Obligations.ModesKept := by
  unfold Obligations.ModesKept
  intro s t hagree hstep
  unfold step at hstep
  split at hstep
  case h_1 =>
    obtain rfl := Host.Outcome.next.inj hstep
    exact hagree
  case h_2 c rest _ =>
    have hrest : ModesStill s { s with pending := rest } := ⟨rfl, .refl _, rfl, id, id⟩
    obtain ⟨u, hexec, hlands⟩ := exec_lands_agreeing (hrest.agree hagree) c
    obtain rfl := Host.Outcome.next.inj (hexec.symm.trans hstep)
    exact hlands

end Sys2Proof.Machine
end

section
/-! CERTIFICATE. The two resets: the values that they leave in every block, and the invariants that these meet (R7, R19, R33, R70, R91,
R113, R124, R150, R156, R172, R175, R176). -/

namespace Sys2Proof.Machine

/-! ### The invariants -/

theorem State.reset_withinCapacity : State.reset.WithinCapacity := by constructor <;> decide

theorem State.reset_distinct : State.reset.Distinct := ⟨.nil, nofun, .nil, .nil⟩

theorem AlarmUnit.reset_sound : AlarmUnit.reset.Sound := ⟨fun _ => ⟨rfl, rfl⟩, nofun, Nat.zero_le _, Nat.zero_le _⟩

/-- Settles O10, invariant by invariant: at a reset every list is empty and every block is at rest. -/
theorem resetMeetsInvariants : Obligations.ResetMeetsInvariants := by
  unfold Obligations.ResetMeetsInvariants
  exact ⟨State.reset_withinCapacity, State.reset_distinct, State.reset_agree, LaneMonitor.reset_sound, .nil, AlarmUnit.reset_sound⟩

/-! ### The values -/

theorem State.freeRun_of_clock_zero {t : State} (h : t.cadence.clock = 0) : t.freeRun = 0 := by
  rw [State.freeRun, h, Nat.zero_div]

theorem State.tickPosition_of_start {t : State} (hframe : t.cadence.frameIdx = 0) (hoffset : t.cadence.offset = 0) :
    t.tickPosition = 0 := by
  rw [State.tickPosition, hframe, hoffset, Nat.zero_min]
  rfl

/-- The idle count starts from the moment at which the line was last busy. -/
theorem State.idleCount_of_idleFrom {t : State} (h : t.line.idleFrom = t.cadence.clock) : t.idleCount = 0 := by
  simp [State.idleCount, h]

/-- Settles O14: a service reset differs from a power-on reset in the journal and in the start-up block's note of the kind, and each
block's value can be read off its reset value. -/
theorem resetsLeave : Obligations.ResetsLeave := by
  unfold Obligations.ResetsLeave
  rintro s c (rfl | rfl) <;>
  exact ⟨_, rfl, rfl, ⟨rfl, rfl, rfl, rfl, rfl, rfl⟩,
    ⟨rfl, rfl, State.tickPosition_of_start rfl rfl, rfl, State.freeRun_of_clock_zero rfl, rfl, rfl, rfl, rfl, rfl, rfl⟩,
    ⟨rfl, rfl, rfl⟩, rfl, rfl, ⟨rfl, rfl, rfl, rfl, rfl, rfl, rfl, rfl, rfl⟩,
    ⟨rfl, rfl, rfl, rfl, State.idleCount_of_idleFrom rfl, rfl⟩, rfl, ⟨rfl, rfl, rfl⟩, rfl, ⟨rfl, rfl, rfl⟩,
    State.dark_of_not_lampsFollow _ rfl⟩

end Sys2Proof.Machine
end

section
/-! CERTIFICATE. Supply hold, the resume from it, and the end of the configuration (R179, R180, R181, R183, R184). -/

namespace Sys2Proof.Machine

/-! ### Time passed -/

section Moved

variable (s : State)

/-- Whether or not the clock runs, only the clock and the offset are others after a time. -/
theorem State.advance_moved (u : Nat) :
    ∃ clock offset, s.advance u = s.withCadence { s.cadence with clock := clock, offset := offset } := by
  obtain ⟨c, hc, htime⟩ := s.advance_cases u
  exact ⟨_, _, hc.trans (congrArg s.withCadence htime)⟩

variable {s} (hruns : s.clockRuns = true)
include hruns

theorem State.toMoment_moved (m : Nat) : ∃ offset,
    s.toMoment m = s.withCadence { s.cadence with clock := max s.cadence.clock m, offset := offset } := by
  obtain ⟨c, hc, hclock, htime⟩ := State.toMoment_runs hruns m
  refine ⟨c.offset, hc.trans (congrArg s.withCadence ?_)⟩
  rw [← hclock]
  exact htime

theorem State.waitBits_moved (n : Nat) : ∃ offset,
    s.waitBits n = s.withCadence { s.cadence with clock := s.cadence.clock + n * 2048, offset := offset } :=
  ⟨_, State.waitBits_eq hruns n⟩

end Moved

/-! ### The resume -/

/-- The part resumed from supply hold (R184). -/
def State.resumed (s : State) : ResumeTo → State
  | .straps => s.resume.withStartup { s.resume.startup with state := .straps }
  | .strapFault => s.resume.withStartup { s.resume.startup with state := .strapFault }
  | .listening => s.resume.beginListening true

theorem exec_holdResume_resumed {s : State} {r : ResumeTo} (hstate : s.startup.state = .hold) (hresume : s.startup.resumeTo = some r) :
    exec .holdResume s = .next (s.resumed r) := by
  refine congrArg Host.Outcome.next ((if_pos hstate).trans ?_)
  rw [hresume]
  cases r <;> rfl

section Resumed

variable (s : State) (r : ResumeTo)

/-- The frame of a resume is that of the command, from any state that is in hold. -/
theorem State.resumed_frame : SameBut s [.cadence, .lane, .neighbours, .line, .startup] (s.resumed r) := by
  cases r with
  | straps => exact s.resume_frame.then (State.withStartup_frame _ _) (by simp) (by simp)
  | strapFault => exact s.resume_frame.then (State.withStartup_frame _ _) (by simp) (by simp)
  | listening => exact s.resume_frame.then (State.beginListening_frame _ _) (by simp) (by simp)

theorem State.resumed_lane : (s.resumed r).lane = s.lane.resume := by cases r <;> rfl

theorem State.resumed_neighbours : (s.resumed r).neighbours = s.neighbours.resume := by cases r <;> rfl

theorem State.resumed_time : (s.resumed r).cadence.clock = 0 ∧ (s.resumed r).cadence.nextFilter = 32 ∧
    (s.resumed r).cadence.superFrame = s.cadence.superFrame := by cases r <;> exact ⟨rfl, rfl, rfl⟩

theorem State.resumed_kept : (s.resumed r).startup.image = s.startup.image ∧ (s.resumed r).startup.straps = s.startup.straps ∧
    (s.resumed r).startup.defaulted = s.startup.defaulted ∧ (s.resumed r).startup.key = s.startup.key := by
  cases r <;> exact ⟨rfl, rfl, rfl, rfl⟩

end Resumed

/-- Settles O19: every resume restarts the clock and discards what the lane monitor and the neighbour table held; only the one to
LISTENING goes on to wake the row line. -/
theorem holdResumed : Obligations.HoldResumed := by
  unfold Obligations.HoldResumed
  intro s r hstate hresume
  obtain ⟨hclock, hfilter, hnumber⟩ := s.resumed_time r
  refine ⟨_, exec_holdResume_resumed hstate hresume, s.resumed_frame r, ?_, State.freeRun_of_clock_zero hclock, hfilter, hnumber, ?_,
    s.resumed_neighbours r, s.resumed_kept r, ?_, ?_⟩
  · cases r <;> rfl
  · rw [s.resumed_lane r]
    exact ⟨rfl, rfl, rfl, rfl, rfl, rfl, rfl, rfl, rfl, rfl⟩
  · rintro rfl
    exact ⟨rfl, rfl, State.freeRun_of_clock_zero hclock, rfl, rfl, rfl, rfl, rfl, State.idleCount_of_idleFrom rfl, rfl⟩
  · intro hother
    cases r with
    | straps => exact ⟨rfl, rfl⟩
    | strapFault => exact ⟨rfl, rfl⟩
    | listening => exact absurd rfl hother

/-! ### The hold -/

/-- The state to resume is noted where the hold begins (R183). -/
theorem resumeOf_some {x : StartState} (hreset : x ≠ .reset) (hhold : x ≠ .hold) : resumeOf x =
    some (if x = .straps ∨ x = .config then .straps else if x = .strapFault then .strapFault else .listening) := by
  cases x with
  | reset => exact absurd rfl hreset
  | hold => exact absurd rfl hhold
  | straps | config | strapFault | listening | joined => rfl

theorem exec_supplyHold_enters {s : State} {r : ResumeTo} (h : resumeOf s.startup.state = some r) (wait : Nat) :
    exec (.supplyHold wait) s = .next ((s.waitBits wait).enterHold r) := by simp [exec, execSupplyHold, h]

/-- Settles O18: the wait moves the clock and the offset only, and the entry to hold puts the hold values of each block. -/
theorem holdEntered : Obligations.HoldEntered := by
  unfold Obligations.HoldEntered
  intro s wait hreset hhold
  obtain ⟨clock, offset, hc⟩ := s.advance_moved (wait * Config.unitsPerBit)
  have hexec := exec_supplyHold_enters (resumeOf_some hreset hhold) wait
  rw [State.waitBits, hc] at hexec
  have hframe : ∀ c r, SameBut s [.cadence, .field, .sightings, .line, .adj, .startup] ((s.withCadence c).enterHold r) := fun c r =>
    (s.withCadence_frame c).then (State.enterHold_frame _ _) (by simp) (by simp)
  refine ⟨_, hexec, hframe _ _, rfl, ?_, ⟨rfl, rfl, rfl, rfl, rfl⟩, ⟨rfl, rfl, rfl, rfl, rfl, rfl, rfl, rfl, rfl⟩, ⟨rfl, rfl, rfl⟩, rfl,
    ⟨rfl, rfl, rfl, rfl⟩, ⟨rfl, rfl, rfl⟩, State.dark_of_not_lampsFollow _ ?_⟩
  · simp only [State.enterHold]
    split_ifs <;> rfl
  · simp [State.lampsFollow, State.enterHold]

/-! ### The end of the configuration -/

/-- Of a run of bit cells, the clocked levels of the data line are the bits (R179). -/
theorem bitCells_data (bits : List Bool) : ((bits.flatMap bitCell).filter PortLevel.clock).map PortLevel.data = bits := by
  induction bits with
  | nil => rfl
  | cons b bits ih => simp [bitCell, ih]

section Configuration

variable {s : State} (hstate : s.startup.state = .config)
include hstate

theorem State.clockRuns_of_config : s.clockRuns = true := by
  rw [State.clockRuns, hstate]
  rfl

/-- Time reaches the tick at which the transfer is given up. -/
theorem State.toTick_configLimit (hclock : s.cadence.clock ≤ s.configLimit * 15625) : ∃ offset,
    s.toTick s.configLimit = s.withCadence { s.cadence with clock := s.configLimit * 15625, offset := offset } := by
  obtain ⟨offset, ho⟩ := State.toMoment_moved (State.clockRuns_of_config hstate) (s.configLimit * 15625)
  rw [Nat.max_eq_right hclock] at ho
  exact ⟨offset, ho⟩

theorem exec_configNoResponse_finishes (cause : NoResponse) :
    exec (.configNoResponse cause) s = .next ((s.toNoResponse cause).finishConfig none (transferActs cause)) :=
  congrArg Host.Outcome.next (if_pos hstate)

/-- A missing acknowledge ends CONFIG when it is found, and no later than at the limit (R179). -/
theorem exec_configNoResponse_missing (hclock : s.cadence.clock ≤ s.configLimit * 15625) (wait : Nat) {sent : Nat} (hsent : sent ≤ 2) :
    ∃ offset, exec (.configNoResponse (.noAcknowledge wait sent)) s = .next ((s.withCadence { s.cadence with
      clock := min (s.cadence.clock + wait * 2048) (s.configLimit * 15625), offset := offset }).finishConfig none
        (configRead.take (if sent = 2 then 5 else sent + 2))) := by
  have hacts : transferActs (.noAcknowledge wait sent) = configRead.take (if sent = 2 then 5 else sent + 2) :=
    match sent, hsent with
    | 0, _ | 1, _ | 2, _ => rfl
  obtain ⟨offset, ho⟩ := State.waitBits_moved (State.clockRuns_of_config hstate) wait
  obtain ⟨offset', ho'⟩ := State.toTick_configLimit hstate hclock
  rw [exec_configNoResponse_finishes hstate, hacts, State.toNoResponse, ho, ho']
  obtain h | h := Nat.le_total (s.cadence.clock + wait * 2048) (s.configLimit * 15625)
  · exact ⟨offset, by rw [Nat.min_eq_left h, if_pos (by exact h)]⟩
  · obtain heq | hlt := h.eq_or_lt
    · exact ⟨offset, by rw [Nat.min_eq_right h, if_pos (by exact heq.ge), heq]⟩
    · exact ⟨offset', by rw [Nat.min_eq_right h, if_neg (by exact Nat.not_le_of_lt hlt)]⟩

/-- No response by the limit ends CONFIG there, with the steps that were taken on the port (R179). -/
theorem exec_configNoResponse_timeout (hclock : s.cadence.clock ≤ s.configLimit * 15625) {n : Nat} (hn : n < 60) :
    ∃ offset, exec (.configNoResponse (.timeout n)) s = .next ((s.withCadence { s.cadence with
      clock := s.configLimit * 15625, offset := offset }).finishConfig none (configRead.take n)) := by
  obtain ⟨offset, ho⟩ := State.toTick_configLimit hstate hclock
  rw [exec_configNoResponse_finishes hstate, State.toNoResponse, ho, transferActs, Nat.min_eq_left (Nat.le_of_lt_succ hn)]
  exact ⟨offset, rfl⟩

/-- A transfer ends CONFIG when it is complete (R180), -/
theorem exec_configTransferComplete_intime {wait : Nat} (h : s.cadence.clock + wait * 2048 ≤ s.configLimit * 15625) (bytes : List Byte) :
    ∃ offset, exec (.configTransferComplete wait bytes) s = .next ((s.withCadence { s.cadence with
      clock := s.cadence.clock + wait * 2048, offset := offset }).finishConfig (readImage bytes) configRead) := by
  obtain ⟨offset, ho⟩ := State.waitBits_moved (State.clockRuns_of_config hstate) wait
  refine ⟨offset, congrArg Host.Outcome.next ((if_pos hstate).trans ?_)⟩
  rw [ho]
  exact if_pos h

/-- and at the limit when it comes later (R179; notes/assumptions/25.md). -/
theorem exec_configTransferComplete_late (hclock : s.cadence.clock ≤ s.configLimit * 15625) {wait : Nat}
    (h : s.configLimit * 15625 < s.cadence.clock + wait * 2048) (bytes : List Byte) :
    ∃ offset, exec (.configTransferComplete wait bytes) s = .next ((s.withCadence { s.cadence with
      clock := s.configLimit * 15625, offset := offset }).finishConfig none (configRead.take 59)) := by
  obtain ⟨offset, ho⟩ := State.waitBits_moved (State.clockRuns_of_config hstate) wait
  obtain ⟨offset', ho'⟩ := State.toTick_configLimit hstate hclock
  refine ⟨offset', congrArg Host.Outcome.next ((if_pos hstate).trans ?_)⟩
  rw [ho, ho']
  exact if_neg (Nat.not_le_of_lt h)

end Configuration

/-- Settles O17: however CONFIG ends, the same values follow from its moment, its image and its steps on the port. -/
theorem configurationTaken : Obligations.ConfigurationTaken := by
  unfold Obligations.ConfigurationTaken
  refine ⟨?ends, fun byte => ?send, fun acknowledged => ?read⟩
  case ends =>
    rintro s wait limit all hstate rfl hclock rfl c image acts moment hways
    obtain ⟨offset, hexec⟩ : ∃ offset, exec c s =
        .next ((s.withCadence { s.cadence with clock := moment, offset := offset }).finishConfig image acts) := by
      obtain ⟨bytes, rfl, hlength, hintime, rfl, rfl, rfl⟩ | ⟨sent, hsent, rfl, rfl, rfl, rfl⟩ | ⟨n, hn, rfl, rfl, rfl, rfl⟩ |
        ⟨bytes, rfl, hlate, rfl, rfl, rfl⟩ := hways
      · have hfinish := exec_configTransferComplete_intime hstate hintime bytes
        simp only [readImage, hlength, true_and] at hfinish
        exact hfinish
      · exact exec_configNoResponse_missing hstate hclock wait hsent
      · exact exec_configNoResponse_timeout hstate hclock hn
      · exact exec_configTransferComplete_late hstate hclock hlate bytes
    exact ⟨_, hexec, (s.withCadence_frame _).then (State.finishConfig_frame _ _ _) (by simp) (by simp), rfl, rfl, rfl, rfl, rfl, rfl, rfl,
      rfl, rfl, rfl, State.idleCount_of_idleFrom rfl⟩
  case send =>
    rw [PortAct.levels, List.filter_append, List.map_append, bitCells_data]
    rfl
  case read =>
    rw [PortAct.levels, List.filter_append, List.map_append, bitCells_data]
    cases acknowledged <;> rfl

end Sys2Proof.Machine
end

section
/-! CERTIFICATE. Time and edges: time reaches a moment exactly, and the edges that wait are taken in their order (R1, R3, R96, R101). -/

namespace Sys2Proof.Machine

/-! ### Time -/

section Time

variable {s : State} (hruns : s.clockRuns = true)
include hruns

/-- Only a part that is JOINED counts the ticks of its frame (R1). -/
theorem State.toMoment_offset_unjoined (hjoin : s.cadence.join ≠ .joined) (m : Nat) :
    (s.toMoment m).cadence.offset = s.cadence.offset := by
  rw [State.toMoment_eq hruns, State.withCadence_cadence, Cadence.advance]
  exact if_neg hjoin

/-- A part that is JOINED reaches an offset by the ticks that are missing (R1). -/
theorem State.toOffset_reaches (hjoin : s.cadence.join = .joined) (o : Nat) : (s.toOffset o).cadence.offset = max s.cadence.offset o ∧
    (s.toOffset o).freeRun = s.freeRun + (o - s.cadence.offset) := by
  have hticks := ticks_elapsed s.cadence.clock (o - s.cadence.offset)
  simp only [State.toOffset, State.toTick, State.toMoment_eq hruns, Cadence.advance, hjoin, if_true, State.freeRun, Config.unitsPerTick,
    State.withCadence_cadence, hticks]
  omega

end Time

/-! ### One edge -/

section Edge

variable (s : State) (e : Edge)

theorem State.takeEdge_clock {s : State} (hruns : s.clockRuns = true) (e : Edge) :
    (s.takeEdge e).cadence.clock = max s.cadence.clock e.moment ∧ s.cadence.sameButTime (s.takeEdge e).cadence := by
  obtain ⟨c, hc, hclock, htime⟩ := State.toMoment_runs hruns e.moment
  rw [State.takeEdge, hc]
  exact ⟨hclock, htime⟩

theorem State.takeEdge_clockRuns : (s.takeEdge e).clockRuns = s.clockRuns := by
  rw [State.clockRuns, (s.takeEdge_frame e).blocks .startup (by simp), State.clockRuns]

theorem State.takeEdge_line : (s.takeEdge e).line = s.line.takeEdge e := rfl

/-- An edge moves only what tells since when the line is low or idle (R96). -/
theorem RowLine.takeEdge_levels (l : RowLine) : l.takeEdge e =
    { l with idleFrom := (l.takeEdge e).idleFrom, lowFrom := (l.takeEdge e).lowFrom } := by
  unfold RowLine.takeEdge
  split <;> rfl

/-- While the line is low the part counts no idle (R96). -/
theorem State.idleCount_low {s : State} (h : s.line.lowFrom.isSome = true) : s.idleCount = 0 := by simp [State.idleCount, h]

theorem State.waitBits_line (n : Nat) : (s.waitBits n).line = s.line := by
  obtain ⟨clock, offset, h⟩ := s.advance_moved (n * Config.unitsPerBit)
  rw [State.waitBits, h]
  rfl

variable {s e}

theorem State.idleCount_after_fall (h : e.high = false) (n : Nat) : ((s.takeEdge e).waitBits n).idleCount = 0 := by
  refine State.idleCount_low ?_
  rw [State.waitBits_line, State.takeEdge_line]
  simp [RowLine.takeEdge, h]

/-- From its last busy moment the idle count of a part that does not send runs bit by bit (R96). -/
theorem State.idleCount_waitBits {s : State} (hruns : s.clockRuns = true) (hlow : s.line.lowFrom = none)
    (hfrom : s.line.idleFrom = s.cadence.clock) (hsends : s.line.sends = false) (n : Nat) : (s.waitBits n).idleCount = min 255 n := by
  have htx : s.line.tx ≠ .sending := by
    intro h
    simp [RowLine.sends, h] at hsends
  have hquiet : (s.waitBits n).transmitter ≠ .sending := by
    rwa [State.transmitter_quiet (by rwa [State.waitBits_line]), State.waitBits_line]
  obtain ⟨offset, ho⟩ := State.waitBits_moved hruns n
  have hcount : (s.cadence.clock + n * 2048 - s.cadence.clock) / 2048 = n := by omega
  rw [State.idleCount, beq_eq_false_iff_ne.2 hquiet, State.waitBits_line, hlow, hfrom, ho]
  exact congrArg (min 255) hcount

theorem State.idleCount_after_rise (hruns : s.clockRuns = true) (h : e.high = true) (hclock : s.cadence.clock ≤ e.moment)
    (hidle : s.line.idleFrom ≤ e.moment) (hsends : s.line.sends = false) (n : Nat) :
    ((s.takeEdge e).waitBits n).idleCount = min 255 n := by
  have hline : (s.takeEdge e).line = { s.line with lowFrom := none, idleFrom := e.moment } := by
    obtain ⟨moment, high⟩ := e
    obtain rfl : high = true := h
    exact RowLine.takeEdge_high hidle
  refine State.idleCount_waitBits ((s.takeEdge_clockRuns e).trans hruns) ?_ ?_ ?_ n
  · rw [hline]
  · rw [hline, (State.takeEdge_clock hruns e).1, Nat.max_eq_right hclock]
  · rw [hline]
    exact hsends

/-- The edges that are seen are those that come before the gap is over by `blind`, and every one on a line that is low. -/
theorem State.seesEdge_iff (gap blind : Nat) : s.seesEdge gap blind e = true ↔
    s.line.lowFrom ≠ none ∨ e.moment + blind ≤ max s.cadence.clock (s.line.idleFrom + gap * 2048) := by
  simp [State.seesEdge, Option.isSome_iff_ne_none, Config.unitsPerBit]

end Edge

/-! ### The edges that wait -/

/-- The edges from before the last character or break ended belong to it, and are passed over. -/
theorem State.readEdges_after {s : State} {old new : List Edge} (hrx : s.line.rx ≠ .off) (hedges : s.line.edges = old ++ new)
    (hold : ∀ e ∈ old, e.moment < s.line.idleFrom) (hnew : ∀ e ∈ new, s.line.idleFrom ≤ e.moment) (gap blind : Nat) :
    s.readEdges gap blind = s.takeEdges gap blind new := by
  have hnone : old.filter (fun e => decide (s.line.idleFrom ≤ e.moment)) = [] :=
    List.filter_eq_nil_iff.2 fun e he h => absurd (of_decide_eq_true h) (Nat.not_le_of_lt (hold e he))
  have hall : new.filter (fun e => decide (s.line.idleFrom ≤ e.moment)) = new :=
    List.filter_eq_self.2 fun e he => decide_eq_true (hnew e he)
  rw [State.readEdges, if_neg hrx, hedges, List.filter_append, hnone, hall]
  rfl

/-- Settles O4: the clock by what time does to the cadence unit, the edges by the one at the front. -/
theorem timeReachesTheMoment : Obligations.TimeReachesTheMoment := by
  unfold Obligations.TimeReachesTheMoment
  refine ⟨fun s hruns => ⟨fun m => ?moment, fun m hjoin => State.toMoment_offset_unjoined hruns hjoin m,
      fun o hjoin => State.toOffset_reaches hruns hjoin o⟩,
    fun s gap blind h => ?none, fun s gap blind old new hrx hedges hold hnew => State.readEdges_after hrx hedges hold hnew gap blind,
    fun s gap blind e es hruns => ⟨rfl, fun hseen => State.takeEdges_seen ((State.seesEdge_iff gap blind).2 hseen) es,
      fun hlow hlate => State.takeEdges_unseen ?unseen es, s.takeEdge_frame e, (State.takeEdge_clock hruns e).1,
      (State.takeEdge_clock hruns e).2, s.line.takeEdge_levels e, fun hfall n => State.idleCount_after_fall hfall n,
      fun hrise hclock hidle hquiet n => State.idleCount_after_rise hruns hrise hclock hidle ?quiet n⟩⟩
  case moment =>
    obtain ⟨c, hc, hclock, htime⟩ := State.toMoment_runs hruns m
    exact ⟨by rw [hc]; exact hclock, by rw [hc]; exact htime, s.toMoment_frame m⟩
  case none => exact h.elim (fun hoff => State.readEdges_off hoff gap blind) (fun hnil => State.readEdges_nil hnil gap blind)
  case unseen =>
    refine Bool.eq_false_iff.2 fun hseen => ?_
    obtain h | h := (State.seesEdge_iff gap blind).1 hseen
    · exact h hlow
    · omega
  case quiet => exact Bool.eq_false_iff.2 fun h => hquiet (s.line.sends_iff.1 h)

end Sys2Proof.Machine
end

section
/-! CERTIFICATE. The receiver: notices in assembly begun, grown and discarded, and the quiet ended (R12, R93, R95, R96, R102 to R105). -/

namespace Sys2Proof.Machine

/-! ### What reading the edges leaves -/

section Read

variable (s : State) (gap blind : Nat)

theorem State.takeEdges_line (edges : List Edge) : ∀ s : State, ∃ idleFrom lowFrom waiting,
    (s.takeEdges gap blind edges).line = { s.line with idleFrom := idleFrom, lowFrom := lowFrom, edges := waiting } := by
  induction edges with
  | nil => exact fun s => ⟨_, _, _, rfl⟩
  | cons e es ih =>
    intro s
    unfold State.takeEdges
    split
    · obtain ⟨idleFrom, lowFrom, waiting, hline⟩ := ih (s.takeEdge e)
      exact ⟨idleFrom, lowFrom, waiting, by rw [hline, s.takeEdge_line, s.line.takeEdge_levels]⟩
    · exact ⟨_, _, _, rfl⟩

/-- Of the line, the edges move only what tells since when it is low or idle (R96). -/
theorem State.readEdges_line : ∃ idleFrom lowFrom waiting,
    (s.readEdges gap blind).line = { s.line with idleFrom := idleFrom, lowFrom := lowFrom, edges := waiting } := by
  unfold State.readEdges
  split
  · exact ⟨_, _, _, rfl⟩
  · exact s.takeEdges_line gap blind _

theorem State.takeEdges_moved (edges : List Edge) : ∀ s : State, ∃ clock offset,
    (s.takeEdges gap blind edges).cadence = { s.cadence with clock := clock, offset := offset } := by
  induction edges with
  | nil => exact fun s => ⟨_, _, rfl⟩
  | cons e es ih =>
    intro s
    unfold State.takeEdges
    split
    · obtain ⟨clock, offset, hcadence⟩ := ih (s.takeEdge e)
      obtain ⟨clock', offset', hmoment⟩ := s.advance_moved (e.moment - s.cadence.clock)
      refine ⟨clock, offset, hcadence.trans ?_⟩
      rw [State.takeEdge, State.toMoment, hmoment]
      rfl
    · exact ⟨_, _, rfl⟩

/-- Of the cadence unit, they move the clock and the offset. -/
theorem State.readEdges_moved : ∃ clock offset,
    (s.readEdges gap blind).cadence = { s.cadence with clock := clock, offset := offset } := by
  unfold State.readEdges
  split
  · exact ⟨_, _, rfl⟩
  · exact s.takeEdges_moved gap blind _

theorem State.readEdges_startup : (s.readEdges gap blind).startup = s.startup :=
  (s.readEdges_frame gap blind).blocks .startup (by simp)

end Read

/-! ### Assemblies discarded -/

/-- A framing error has the start bit and the stop bit low, on a line low for fewer than 20 bit times (R93). -/
theorem isFramingError_iff (levels : BitVec 11) (low : Nat) : isFramingError levels low = true ↔
    levels.getLsbD 0 = false ∧ levels.getLsbD 10 = false ∧ low < 20 := by
  rw [isFramingError, edgeHeard, isBreak]
  cases levels.getLsbD 0 <;> cases levels.getLsbD 10 <;> simp

section Discarded

variable {s : State}

theorem exec_framingError_no {wait low : Nat} {levels : BitVec 11} (h : isFramingError levels low = false) :
    exec (.framingError ⟨wait, low, levels⟩) s = .next s := congrArg Host.Outcome.next (if_pos (.inr h))

theorem exec_framingError_discards (hruns : s.clockRuns = true) (hrx : s.line.rx ≠ .off) (wait : Nat) {low : Nat} {levels : BitVec 11}
    (h : isFramingError levels low = true) : ∃ offset, exec (.framingError ⟨wait, low, levels⟩) s =
      .next ((s.withCadence { s.cadence with
        clock := s.cadence.clock + wait * 2048, offset := offset, pendingBreak := none }).withLine
          { s.line with rx := .hunting, idleFrom := s.cadence.clock + wait * 2048, lowFrom := none }) := by
  obtain ⟨offset, ho⟩ := State.waitBits_moved hruns wait
  refine ⟨offset, congrArg Host.Outcome.next ((if_neg ?_).trans ?_)⟩
  · rintro (hoff | hno)
    · exact hrx hoff
    · exact Bool.false_ne_true (hno.symm.trans h)
  · rw [ho]
    rfl

theorem exec_receiverIdleTimeout_busy {u : State} (hu : u = s.readEdges 11 1) (h : u.line.lowFrom ≠ none ∨ u.line.sends = true) :
    exec .receiverIdleTimeout s = .next u := by
  subst hu
  refine congrArg Host.Outcome.next ?_
  dsimp only
  split
  case h_1 hidle =>
    obtain ⟨hhigh, hquiet⟩ := Bool.or_eq_false_iff.1 hidle
    obtain hlow | hsends := h
    · exact absurd (Option.isSome_eq_false_iff.1 hhigh) (by simpa using hlow)
    · exact absurd (hquiet.symm.trans hsends) Bool.false_ne_true
  case h_2 => rfl

theorem exec_receiverIdleTimeout_discards {u : State} (hu : u = s.readEdges 11 1) {bytes : List Byte} {own : Bool}
    (hrx : u.line.rx = .assembling bytes own) (hshort : assemblyComplete bytes = false) (hlow : u.line.lowFrom = none)
    (hsends : u.line.sends = false) :
    exec .receiverIdleTimeout s = .next (u.toMoment (u.line.idleFrom + 11 * 2048)).dropAssembly := by
  subst hu
  change execReceiverIdleTimeout s = _
  simp only [execReceiverIdleTimeout, hrx, hlow, hsends]
  exact congrArg Host.Outcome.next (if_neg (Bool.eq_false_iff.1 hshort))

theorem exec_noticeInvalid_discards {bytes : List Byte} {own : Bool} (hrx : s.line.rx = .assembling bytes own)
    (hbad : badLength bytes = true ∨ (assemblyComplete bytes = true ∧ assemblyNotice bytes = none)) :
    exec .noticeInvalid s = .next s.dropAssembly := by
  have htest : (badLength bytes || (assemblyComplete bytes && (assemblyNotice bytes).isNone)) = true := by simpa using hbad
  change execNoticeInvalid s = _
  rw [execNoticeInvalid, hrx]
  exact congrArg Host.Outcome.next (if_pos htest)

theorem exec_quietEnd_ends {q : Nat} (h : s.line.quietFrom = some q) : exec .quietEnd s =
    .next ((s.toMoment (q + 22 * 2048)).withLine { (s.toMoment (q + 22 * 2048)).line with quietFrom := none }) := by
  change execQuietEnd s = _
  rw [execQuietEnd, h]
  rfl

end Discarded

/-- Settles O40: each of the four ends what it ends at the moment at which its time is over. -/
theorem assembliesDiscarded : Obligations.AssembliesDiscarded := by
  unfold Obligations.AssembliesDiscarded
  refine ⟨fun s wait low levels hruns hrx => ⟨fun hno => ?noError, fun hstart hstop hlow => ?framing⟩,
    fun s u bytes own hu hruns hrx hshort => ?idle, fun s bytes own hrx hbad => ?invalid, fun s q hruns hquiet => ?quiet⟩
  case noError =>
    refine exec_framingError_no (Bool.eq_false_iff.2 fun herror => ?_)
    obtain ⟨hstart, hstop, hshort⟩ := (isFramingError_iff levels low).1 herror
    obtain h | h | h := hno
    · exact Bool.false_ne_true (hstart.symm.trans h)
    · exact Bool.false_ne_true (hstop.symm.trans h)
    · exact Nat.not_le_of_lt hshort h
  case framing =>
    obtain ⟨offset, hexec⟩ := exec_framingError_discards hruns hrx wait ((isFramingError_iff levels low).2 ⟨hstart, hstop, hlow⟩)
    exact ⟨_, hexec, (s.withCadence_frame _).then (State.withLine_frame _ _) (by simp) (by simp), rfl, rfl, rfl, rfl⟩
  case idle =>
    obtain ⟨idleFrom, lowFrom, waiting, hline⟩ := s.readEdges_line 11 1
    obtain ⟨clock, offset, hcadence⟩ := s.readEdges_moved 11 1
    rw [← hu] at hline hcadence
    have hsends : u.line.sends = s.line.sends := by rw [hline]; rfl
    have hrunsU : u.clockRuns = true := by rwa [State.clockRuns, hu, s.readEdges_startup]
    refine ⟨fun hbusy => exec_receiverIdleTimeout_busy hu (hbusy.imp_right fun h => ?_), fun hlow hquiet => ?_⟩
    · exact hsends.trans (s.line.sends_iff.2 h)
    · obtain ⟨offset', ho⟩ := State.toMoment_moved hrunsU (u.line.idleFrom + 11 * 2048)
      have hexec := exec_receiverIdleTimeout_discards hu (by rw [hline]; exact hrx) hshort hlow
        (hsends.trans (Bool.eq_false_iff.2 fun h => hquiet (s.line.sends_iff.1 h)))
      rw [ho] at hexec
      refine ⟨_, hexec, (u.withCadence_frame _).then (State.dropAssembly_frame _) (by simp) (by simp), rfl, rfl, ?_⟩
      change u.cadence.pendingBreak.filter _ = _
      rw [hcadence]
  case invalid => exact ⟨_, exec_noticeInvalid_discards hrx hbad, s.dropAssembly_frame.mono (by simp), rfl, rfl⟩
  case quiet =>
    obtain ⟨offset, ho⟩ := State.toMoment_moved hruns (q + 22 * 2048)
    have hexec := exec_quietEnd_ends hquiet
    rw [ho] at hexec
    exact ⟨_, hexec, (s.withCadence_frame _).then (State.withLine_frame _ _) (by simp) (by simp), rfl, rfl, rfl⟩

/-! ### Characters -/

/-- What is heard of a falling edge turns on the levels of 11 bit times (R93). -/
theorem edgeHeard_congr {f g : Nat → Bool} (h : ∀ i, i ≤ 10 → f i = g i) : edgeHeard f = edgeHeard g := by
  simp only [edgeHeard, h 0 (by decide), h 1 (by decide), h 2 (by decide), h 3 (by decide), h 4 (by decide), h 5 (by decide),
    h 6 (by decide), h 7 (by decide), h 8 (by decide), h 9 (by decide), h 10 (by decide)]

/-- The levels of a character with its stop bit high are heard as that character (R92, R93). -/
theorem edgeHeard_cons {levels : BitVec 10} {byte : Byte} {lead : Bool}
    (h : ∀ i, i < 10 → levels.getLsbD i = (characterLevels (byte, lead)).getD i true) :
    edgeHeard (BitVec.cons true levels).getLsbD = .character byte lead := by
  rw [← edgeHeard_characterLevels byte lead]
  refine edgeHeard_congr fun i hi => ?_
  obtain rfl | hlt := hi.eq_or_lt
  · rw [BitVec.getLsbD_cons, if_pos rfl]
    rfl
  · rw [BitVec.getLsbD_cons, if_neg (Nat.ne_of_lt hlt), h i hlt]

/-- A high start bit or a low stop bit is heard as no character (R93). -/
theorem edgeHeard_none {levels : BitVec 10} {stop : Bool} (h : levels.getLsbD 0 = true ∨ stop = false) (byte : Byte) (lead : Bool) :
    edgeHeard (BitVec.cons stop levels).getLsbD ≠ .character byte lead := by
  have hstart : (BitVec.cons stop levels).getLsbD 0 = levels.getLsbD 0 := by rw [BitVec.getLsbD_cons, if_neg (by decide)]
  have hstop : (BitVec.cons stop levels).getLsbD 10 = stop := by rw [BitVec.getLsbD_cons, if_pos rfl]
  rw [edgeHeard, hstart, hstop]
  obtain h | h := h <;> rw [h]
  · exact nofun
  · split <;> exact nofun

section Characters

variable {s : State}

theorem exec_characterReceived_none {levels : BitVec 10} {stop : Bool} (h : levels.getLsbD 0 = true ∨ stop = false) (wait : Nat) :
    exec (.characterReceived wait levels stop) s = .next s := by
  refine congrArg Host.Outcome.next ?_
  split
  case isTrue => rfl
  case isFalse =>
    split
    case h_1 hheard => exact absurd hheard (edgeHeard_none h _ _)
    case h_2 => rfl
    case h_3 => rfl

/-- The entry to SENDING is written down once the 2 bit times after the own break are over, and changes the transmitter and the back-off
only (R94, R98). -/
theorem State.startLead_line (s : State) : ∃ tx backoff, s.startLead = s.withLine { s.line with tx := tx, backoff := backoff } ∧
    (s.line.tx ≠ .brk → tx = s.line.tx ∧ backoff = s.line.backoff) ∧
    (s.line.tx = .brk → s.line.sending ≠ [] → s.line.txFrom ≤ s.cadence.clock → tx = .sending ∧ backoff = false) := by
  unfold State.startLead
  split
  case isTrue h => exact ⟨.sending, false, rfl, fun hother => absurd h.1 hother, fun _ _ _ => ⟨rfl, rfl⟩⟩
  case isFalse h =>
    refine ⟨s.line.tx, s.line.backoff, rfl, fun _ => ⟨rfl, rfl⟩, fun hbreak hlead hfrom => absurd ⟨hbreak, ?_⟩ h⟩
    rw [State.transmitter, s.line.sends_iff.2 (.inr ⟨hbreak, hlead⟩), decide_eq_true hfrom]
    rfl

/-- The state in which a character is taken: at the end of its stop bit, from which the idle count starts again (R96). -/
def State.characterEnded (s : State) (c : Cadence) (tx : TxState) (backoff : Bool) : State :=
  (s.withCadence c).withLine { s.line with tx := tx, backoff := backoff, idleFrom := c.clock, lowFrom := none }

theorem exec_characterReceived_taken (hruns : s.clockRuns = true) (hrx : s.line.rx ≠ .off) (wait : Nat) {levels : BitVec 10} {byte : Byte}
    {lead : Bool} (hlevels : ∀ i, i < 10 → levels.getLsbD i = (characterLevels (byte, lead)).getD i true) :
    ∃ offset tx backoff, (s.line.tx ≠ .brk → tx = s.line.tx ∧ backoff = s.line.backoff) ∧
      (s.line.tx = .brk → s.line.sending ≠ [] → s.line.txFrom ≤ s.cadence.clock + wait * 2048 → tx = .sending ∧ backoff = false) ∧
      ∀ t, t = s.characterEnded { s.cadence with clock := s.cadence.clock + wait * 2048, offset := offset } tx backoff →
        exec (.characterReceived wait levels true) s = .next (if lead then t.beginAssembly byte else t.takeCharacter byte) := by
  obtain ⟨offset, ho⟩ := State.waitBits_moved hruns wait
  obtain ⟨tx, backoff, hlead, hsame, hsending⟩ := (s.waitBits wait).startLead_line
  rw [ho] at hlead hsame hsending
  refine ⟨offset, tx, backoff, hsame, hsending, ?_⟩
  rintro t rfl
  change execCharacterReceived wait levels true s = _
  rw [execCharacterReceived, if_neg hrx, edgeHeard_cons hlevels, ho]
  dsimp only
  rw [hlead]
  rfl

/-- A lead character pairs a break that no other has been paired with, and that ended at most 44 bit times before the lead began
(R12; notes/assumptions/13.md). -/
theorem State.beginAssembly_break (s : State) (byte : Byte) :
    (s.cadence.pendingBreak = none → (s.beginAssembly byte).cadence.pendingBreak = none) ∧
    ∀ b, s.cadence.pendingBreak = some b →
      (b.paired = false → s.cadence.clock ≤ b.moment + 55 * 2048 →
        (s.beginAssembly byte).cadence.pendingBreak = some { b with paired := true }) ∧
      (b.paired = true ∨ b.moment + 55 * 2048 < s.cadence.clock → (s.beginAssembly byte).cadence.pendingBreak = none) := by
  have hkeep : (s.beginAssembly byte).cadence.pendingBreak = ((s.cadence.pendingBreak.filter (fun b => !b.paired)).filter
      (fun b => decide (s.cadence.clock ≤ b.moment + 55 * 2048))).map (fun b => { b with paired := true }) := rfl
  refine ⟨fun hnone => by rw [hkeep, hnone]; rfl, fun b hb => ?_⟩
  rw [hkeep, hb]
  refine ⟨fun hfree hnear => by simp [Option.filter, hfree, hnear], ?_⟩
  rintro (hpaired | hfar)
  · simp [Option.filter, hpaired]
  · cases hfree : b.paired <;> simp [Option.filter, hfree, Nat.not_le_of_lt hfar]

/-- A character without lead flag: taken into an assembly that still waits for it (R102), and discarding one that does not (R103). -/
theorem State.takeCharacter_eq (s : State) (byte : Byte) : ∃ rx pending,
    s.takeCharacter byte = (s.withLine { s.line with rx := rx }).withCadence { s.cadence with pendingBreak := pending } ∧
    (s.line.rx = .hunting → rx = .hunting ∧ pending = s.cadence.pendingBreak) ∧
    ∀ bytes own, s.line.rx = .assembling bytes own →
      (badLength bytes = false → assemblyComplete bytes = false →
        rx = .assembling (bytes ++ [byte]) own ∧ pending = s.cadence.pendingBreak) ∧
      (badLength bytes = true ∨ assemblyComplete bytes = true →
        rx = .hunting ∧ pending = s.cadence.pendingBreak.filter (fun b => !b.paired)) := by
  unfold State.takeCharacter
  cases hrx : s.line.rx with
  | off => exact ⟨s.line.rx, s.cadence.pendingBreak, rfl, nofun, nofun⟩
  | hunting => exact ⟨s.line.rx, s.cadence.pendingBreak, rfl, fun _ => ⟨hrx, rfl⟩, nofun⟩
  | assembling bytes own =>
    dsimp only
    split
    case isTrue hbad =>
      refine ⟨_, _, rfl, nofun, ?_⟩
      rintro _ _ ⟨⟩
      refine ⟨fun hgood hshort => ?_, fun _ => ⟨rfl, rfl⟩⟩
      simp [hgood, hshort] at hbad
    case isFalse hwaits =>
      refine ⟨.assembling (bytes ++ [byte]) own, s.cadence.pendingBreak, rfl, nofun, ?_⟩
      rintro _ _ ⟨⟩
      exact ⟨fun _ _ => ⟨rfl, rfl⟩, fun hbad => absurd (by simpa using hbad) hwaits⟩

end Characters

/-- Settles O39: the levels tell a character from none, the lead flag whether it begins an assembly, and the receiver's state what another
one does. -/
theorem charactersAssembled : Obligations.CharactersAssembled := by
  unfold Obligations.CharactersAssembled
  refine ⟨fun s wait levels stop h => exec_characterReceived_none h wait, fun s wait levels byte lead hruns hrx hlevels => ?_⟩
  obtain ⟨offset, tx, backoff, hsame, hsending, hexec⟩ := exec_characterReceived_taken hruns hrx wait hlevels
  specialize hexec _ rfl
  have hended : ∀ c, SameBut s [.cadence, .line] (s.characterEnded c tx backoff) := fun c =>
    (s.withCadence_frame c).then (State.withLine_frame _ _) (by simp) (by simp)
  cases lead with
  | true =>
    have hbreak := (s.characterEnded { s.cadence with
      clock := s.cadence.clock + wait * 2048, offset := offset } tx backoff).beginAssembly_break byte
    rw [if_pos rfl] at hexec
    exact ⟨_, hexec, (hended _).then (State.beginAssembly_frame _ _) (by simp) (by simp), rfl, rfl, rfl, hsame, hsending,
      fun _ => ⟨rfl, hbreak⟩, nofun, nofun⟩
  | false =>
    obtain ⟨rx, pending, htaken, hhunting, hassembling⟩ := (s.characterEnded { s.cadence with
      clock := s.cadence.clock + wait * 2048, offset := offset } tx backoff).takeCharacter_eq byte
    rw [if_neg Bool.false_ne_true, htaken] at hexec
    exact ⟨_, hexec, ((hended _).then (State.withLine_frame _ _) (ds := [.cadence, .line]) (by simp) (by simp)).then
      (State.withCadence_frame _ _) (by simp) (by simp), rfl, rfl, rfl, hsame, hsending, nofun, fun _ => hhunting,
      fun bytes own _ => hassembling bytes own⟩

end Sys2Proof.Machine
end

section
/-! CERTIFICATE. NOTICE_SENT: the notice that is sent leaves the queue, and its report starts a deadline or a hold, or ends a mark (R10,
R12, R94, R100, R105, R130, R145). -/

namespace Sys2Proof.Machine

/-! ### The notice in transmission -/

section Transmission

variable {queue pre post : List Queued} {q : Queued}

theorem inTransmission_split (hqueue : queue = pre ++ q :: post) (hothers : ∀ x ∈ pre ++ post, x.inTransmission = false)
    (hq : q.inTransmission = true) : inTransmission queue = some q := by
  rw [inTransmission, hqueue, List.find?_append,
    List.find?_eq_none.2 fun x hx => by simp [hothers x (List.mem_append_left _ hx)]]
  simp [hq]

theorem withoutTransmission_split (hqueue : queue = pre ++ q :: post) (hothers : ∀ x ∈ pre ++ post, x.inTransmission = false)
    (hq : q.inTransmission = true) : withoutTransmission queue = pre ++ post := by
  have hkeep : ∀ l : List Queued, (∀ x ∈ l, x.inTransmission = false) → l.filter (fun x => !x.inTransmission) = l :=
    fun l hl => List.filter_eq_self.2 fun x hx => by simp [hl x hx]
  rw [withoutTransmission, hqueue, List.filter_append, List.filter_cons_of_neg (by simp [hq]),
    hkeep pre fun x hx => hothers x (List.mem_append_left _ hx), hkeep post fun x hx => hothers x (List.mem_append_right _ hx)]

end Transmission

/-! ### Sent reports -/

/-- The report that a notice is sent, by its kind (R10, R12, R100, R130, R145). -/
theorem State.sentReport_eq (s : State) (n : Notice) : ∃ adj mark pending,
    s.sentReport n = (s.withAdj adj).withCadence { s.cadence with mark := mark, pendingBreak := pending } ∧
    (∀ id lane a b, n = .call id lane a b → adj = { s.adj with list := s.adj.list.map (fun x =>
      if x.callId = id ∧ x.state = .collecting then { x with deadline := some 5 } else x) }) ∧
    (∀ id lane part es, n = .verdict id lane part true es → adj = { s.adj with list := s.adj.list.map (fun x =>
      if x.callId = id ∧ x.state = .holding ∧ x.hold = none then { x with hold := some 3 } else x) }) ∧
    (∀ id lane part es, n = .verdict id lane part false es → adj = s.adj) ∧
    (n.priority = 1 → adj = s.adj ∧ mark = .absent ∧ pending = none) ∧
    (n.priority = 3 ∨ n.priority = 4 ∨ 6 ≤ n.priority → adj = s.adj) := by
  cases n with
  | call id lane a b =>
    refine ⟨(s.startDeadline id).adj, s.cadence.mark, s.cadence.pendingBreak, rfl, ?_, nofun, nofun, nofun, by simp [Notice.priority]⟩
    rintro _ _ _ _ ⟨⟩
    rfl
  | verdict id lane part final es =>
    cases final with
    | true =>
      refine ⟨(s.startHold id).adj, s.cadence.mark, s.cadence.pendingBreak, rfl, nofun, ?_, nofun, nofun, by simp [Notice.priority]⟩
      rintro _ _ _ _ ⟨⟩
      rfl
    | false =>
      exact ⟨s.adj, s.cadence.mark, s.cadence.pendingBreak, rfl, nofun, nofun, fun _ _ _ _ _ => rfl, nofun, by simp [Notice.priority]⟩
  | cadence => exact ⟨s.adj, _, _, rfl, nofun, nofun, nofun, fun _ => ⟨rfl, rfl, rfl⟩, by simp [Notice.priority]⟩
  | status | evidence | settlement | alarm | ack | journalCall | journal =>
    exact ⟨s.adj, s.cadence.mark, s.cadence.pendingBreak, rfl, nofun, nofun, nofun, nofun, fun _ => rfl⟩

/-- The part's own receiver discards the notice, and any other assembly stays (R105). -/
theorem State.discardOwn_eq (s : State) : ∃ rx pending,
    s.discardOwn = (s.withLine { s.line with rx := rx }).withCadence { s.cadence with pendingBreak := pending } ∧
    (∀ bytes, s.line.rx = .assembling bytes true → rx = .hunting) ∧
    ((∀ bytes, s.line.rx ≠ .assembling bytes true) → rx = s.line.rx) := by
  unfold State.discardOwn
  split
  case h_1 bytes hrx => exact ⟨_, _, rfl, fun _ _ => rfl, fun h => absurd hrx (h bytes)⟩
  case h_2 hother => exact ⟨s.line.rx, s.cadence.pendingBreak, rfl, fun bytes h => absurd h (hother bytes), fun _ => rfl⟩

/-- By the end of its characters the transmitter is SENDING, and a back-off has lapsed at their start (R94, R98). -/
theorem State.startLead_backoff {s : State} (hsends : s.line.tx = .sending ∨ (s.line.tx = .brk ∧ s.line.sending ≠ []))
    (hfrom : s.line.txFrom ≤ s.cadence.clock) : s.startLead = s.withLine { s.line with
      tx := .sending, backoff := if s.line.tx = .sending then s.line.backoff else false } := by
  obtain ⟨tx, backoff, heq, hsame, hsending⟩ := s.startLead_line
  obtain h | ⟨hbreak, hlead⟩ := hsends
  · obtain ⟨rfl, rfl⟩ := hsame (by rw [h]; decide)
    rw [heq, h]
    rfl
  · obtain ⟨rfl, rfl⟩ := hsending hbreak hlead hfrom
    rw [heq, hbreak]
    rfl

/-- The line and the clock at the end of the characters of a notice that leaves `queue` behind it (R94, R98, R100). -/
def State.transmissionEnded (s : State) (clock offset : Nat) (queue : List Queued) : State :=
  (s.withCadence { s.cadence with clock := clock, offset := offset }).withLine { s.line with
    tx := .waiting
    sending := []
    queue := queue
    backoff := if s.line.tx = .sending then s.line.backoff else false
    idleFrom := clock
    lowFrom := none }

theorem exec_noticeSent_eq {s : State} {q : Queued} {pre post : List Queued} (hruns : s.clockRuns = true)
    (hsends : s.line.tx = .sending ∨ (s.line.tx = .brk ∧ s.line.sending ≠ [])) (hqueue : s.line.queue = pre ++ q :: post)
    (hothers : ∀ x ∈ pre ++ post, x.inTransmission = false) (hq : q.inTransmission = true) : ∃ offset, exec .noticeSent s =
      .next (((s.transmissionEnded (max s.cadence.clock (s.line.txFrom + 11 * s.line.sending.length * 2048)) offset
        (pre ++ post)).discardOwn.sentReport q.notice).finishOffers .none) := by
  obtain ⟨offset, ho⟩ := State.toMoment_moved hruns (s.line.txFrom + 11 * s.line.sending.length * 2048)
  have hlead := State.startLead_backoff (s := s.toMoment (s.line.txFrom + 11 * s.line.sending.length * 2048))
    (by rw [ho]; exact hsends) (by rw [ho]; exact le_trans (Nat.le_add_right _ _) (Nat.le_max_right _ _))
  refine ⟨offset, ?_⟩
  change execNoticeSent s = _
  rw [execNoticeSent, s.line.sends_iff.2 hsends, inTransmission_split hqueue hothers hq]
  simp only [show bits (11 * s.line.sending.length) = 11 * s.line.sending.length * 2048 from rfl]
  rw [hlead, ho]
  simp only [RowLine.endTransmission, State.withLine_line, State.withCadence_line, withoutTransmission_split hqueue hothers hq]
  rfl

/-- Settles O43: the transmitter's part, the receiver's part and the report of the kind, one after another. -/
theorem noticesSent : Obligations.NoticesSent := by
  unfold Obligations.NoticesSent
  intro s q pre post hruns hsends hdropped hqueue hothers hq
  obtain ⟨offset, hexec⟩ := exec_noticeSent_eq hruns hsends hqueue hothers hq
  obtain ⟨rx, pending, hown, hgone, hkept⟩ := State.discardOwn_eq (s.transmissionEnded _ offset (pre ++ post))
  rw [hown] at hexec
  obtain ⟨adj, mark, pending', hreport, hcall, hfinal, hpart, hcadence, hother⟩ := State.sentReport_eq _ q.notice
  rw [hreport, State.finishOffers_none .none (by exact hdropped)] at hexec
  exact ⟨_, hexec, ⟨rfl, fun b hb => by cases b <;> simp at hb <;> rfl⟩, rfl, rfl, hgone, hkept, hcall, hfinal, hpart, hcadence, hother⟩

end Sys2Proof.Machine
end

section
/-! CERTIFICATE. BREAK_RECOGNIZED: another station's break, and the part's own with the SENDING that follows it (R10, R12, R92 to R96). -/

namespace Sys2Proof.Machine

/-! ### The 2 bit times after the own break -/

section Leading

variable {t : State} (hruns : t.clockRuns = true) (htx : t.line.tx = .brk) (hlead : t.line.sending ≠ [])
  (hfrom : t.line.txFrom = t.cadence.clock + 2 * 2048) (hidle : t.line.idleFrom = t.cadence.clock) (hlow : t.line.lowFrom = none)
include hruns htx hlead hfrom

/-- For 2 bit times the transmitter is in BREAK, and leaves the line high (R94). -/
theorem State.waitBits_leading {n : Nat} (hn : n < 2) :
    (t.waitBits n).transmitter = .brk ∧ (t.waitBits n).drivesLow = false := by
  obtain ⟨offset, ho⟩ := State.waitBits_moved hruns n
  have hbefore : t.cadence.clock + n * 2048 < t.line.txFrom := by omega
  have htransmitter : (t.waitBits n).transmitter = .brk := by
    rw [State.transmitter, ho]
    refine (if_neg fun h => ?_).trans htx
    obtain ⟨-, h⟩ := Bool.and_eq_true_iff.1 h
    exact Nat.not_le_of_lt hbefore (of_decide_eq_true h)
  refine ⟨htransmitter, ?_⟩
  have hempty : (t.waitBits n).line.sending.isEmpty = false := by rw [t.waitBits_line]; simpa using hlead
  simp only [State.drivesLow, htransmitter, hempty, Bool.false_and]

/-- From then on it is SENDING, and drives its characters bit by bit (R92, R94). -/
theorem State.waitBits_led {n : Nat} (hn : 2 ≤ n) : (t.waitBits n).transmitter = .sending ∧
    (t.waitBits n).drivesLow = ((t.line.sending.flatMap characterLevels)[n - 2]? == some false) := by
  obtain ⟨offset, ho⟩ := State.waitBits_moved hruns n
  have hsends := t.line.sends_iff.2 (.inr ⟨htx, hlead⟩)
  have hreached : t.line.txFrom ≤ t.cadence.clock + n * 2048 := by omega
  have hbit : (t.cadence.clock + n * 2048 - t.line.txFrom) / 2048 = n - 2 := by omega
  have htransmitter : (t.waitBits n).transmitter = .sending := by
    rw [State.transmitter, ho]
    exact if_pos (by simp [hsends, hreached])
  refine ⟨htransmitter, ?_⟩
  rw [State.drivesLow, htransmitter, ho]
  exact congrArg (fun b => (t.line.sending.flatMap characterLevels)[b]? == some false) hbit

include hidle hlow

/-- The idle count runs for these 2 bit times, and then stands at 0 (R96). -/
theorem State.leadingBits (n : Nat) :
    (n < 2 → (t.waitBits n).transmitter = .brk ∧ (t.waitBits n).drivesLow = false ∧ (t.waitBits n).idleCount = n) ∧
    (2 ≤ n → (t.waitBits n).transmitter = .sending ∧ (t.waitBits n).idleCount = 0 ∧
      (t.waitBits n).drivesLow = ((t.line.sending.flatMap characterLevels)[n - 2]? == some false)) := by
  refine ⟨fun hn => ?_, fun hn => ?_⟩
  · obtain ⟨htransmitter, hhigh⟩ := State.waitBits_leading hruns htx hlead hfrom hn
    obtain ⟨offset, ho⟩ := State.waitBits_moved hruns n
    have hcount : min 255 ((t.cadence.clock + n * 2048 - t.cadence.clock) / 2048) = n := by omega
    refine ⟨htransmitter, hhigh, ?_⟩
    rw [State.idleCount, htransmitter, t.waitBits_line, hlow, hidle, ho]
    exact hcount
  · obtain ⟨htransmitter, hdrives⟩ := State.waitBits_led hruns htx hlead hfrom hn
    exact ⟨htransmitter, State.idleCount_sending htransmitter, hdrives⟩

end Leading

/-- A framed notice has at least its lead character (R107). -/
theorem Notice.characters_ne_nil (sender : Nat) (n : Notice) : n.characters sender ≠ [] := by
  simp [Notice.characters, Notice.frame]

/-! ### The break that is recognized -/

section Recognized

variable {s : State}

/-- Seeing the line high after its own break, the part will send the notice in transmission (R94). -/
theorem State.awaitLead_some {q : Queued} (hown : s.ownBreak = true) (hq : inTransmission s.line.queue = some q) : s.awaitLead =
    s.withLine { s.line with sending := q.notice.characters s.position, txFrom := s.cadence.clock + 2 * 2048 } := by
  rw [State.awaitLead, hown, hq]
  rfl

theorem exec_breakRecognized_short {wait low : Nat} (hlow : low < 20) (hown : s.ownBreak = false) :
    exec (.breakRecognized ⟨wait, low⟩) s = .next s := by
  have hshort : isBreak low = false := decide_eq_false (Nat.not_le_of_lt hlow)
  change execBreakRecognized ⟨wait, low⟩ s = _
  rw [execBreakRecognized, hown, hshort]
  simp

variable (hruns : s.clockRuns = true) (hrx : s.line.rx ≠ .off)
include hruns hrx

/-- Another station's break (R93, R95). -/
theorem exec_breakRecognized_other (wait : Nat) {low : Nat} (hlow : 20 ≤ low) (hown : s.ownBreak = false) :
    ∃ offset tx backoff, (s.line.tx ≠ .brk → tx = s.line.tx ∧ backoff = s.line.backoff) ∧ exec (.breakRecognized ⟨wait, low⟩) s =
      .next ((s.withCadence { s.cadence with clock := s.cadence.clock + wait * 2048, offset := offset }).withLine
        { s.line with tx := tx, backoff := backoff }).takeBreak := by
  have hlong : isBreak low = true := decide_eq_true hlow
  obtain ⟨offset, ho⟩ := State.waitBits_moved hruns wait
  obtain ⟨tx, backoff, hlead, hsame, -⟩ := (s.waitBits wait).startLead_line
  rw [ho] at hlead hsame
  refine ⟨offset, tx, backoff, hsame, ?_⟩
  change execBreakRecognized ⟨wait, low⟩ s = _
  rw [execBreakRecognized, if_neg hrx, hown, hlong, ho]
  exact congrArg (fun u => Host.Outcome.next u.takeBreak) hlead

omit hrx in
/-- The mark lost 8 bit times after the 24 of its break (R94). -/
theorem State.loseMark_eq : ∃ offset, s.loseMark = (s.withCadence { s.cadence with
    clock := max s.cadence.clock (s.line.txFrom + 32 * 2048), offset := offset, mark := .absent }).withLine
      (s.line.endTransmission (max s.cadence.clock (s.line.txFrom + 32 * 2048))) := by
  obtain ⟨offset, ho⟩ := State.toMoment_moved hruns (s.line.txFrom + 32 * 2048)
  refine ⟨offset, ?_⟩
  rw [State.loseMark, show bits 32 = 32 * 2048 from rfl, ho]
  rfl

variable (hown : s.ownBreak = true)
include hown

/-- The part's own break, ended within 8 bit times after its 24 (R94). -/
theorem exec_breakRecognized_own {wait low : Nat} {q : Queued} (hq : inTransmission s.line.queue = some q)
    (hintime : s.cadence.clock + wait * 2048 ≤ s.line.txFrom + 32 * 2048) : ∃ clock offset,
    clock = max (s.cadence.clock + wait * 2048) (s.line.txFrom + 24 * 2048) ∧ exec (.breakRecognized ⟨wait, low⟩) s =
      .next ((s.withCadence { s.cadence with clock := clock, offset := offset }).takeBreak.withLine { s.line with
        rx := .hunting
        quietFrom := some clock
        idleFrom := clock
        lowFrom := none
        sending := q.notice.characters s.position
        txFrom := clock + 2 * 2048 }) := by
  obtain ⟨offset, ho⟩ := State.toMoment_moved hruns (max (s.cadence.clock + wait * 2048) (s.line.txFrom + 24 * 2048))
  rw [Nat.max_eq_right (a := s.cadence.clock) (le_trans (Nat.le_add_right _ _) (Nat.le_max_left _ _))] at ho
  refine ⟨_, offset, rfl, congrArg Host.Outcome.next ((if_neg hrx).trans ((if_pos hown).trans ((if_pos hintime).trans ?_)))⟩
  change (s.toMoment (max (s.cadence.clock + wait * 2048) (s.line.txFrom + 24 * 2048))).takeBreak.awaitLead = _
  rw [ho]
  exact State.awaitLead_some (s := (s.withCadence _).takeBreak) hown hq

/-- The part's own break, ended after its mark has been lost (R94). -/
theorem exec_breakRecognized_lost {wait low : Nat} (hlate : s.line.txFrom + 32 * 2048 < s.cadence.clock + wait * 2048) :
    ∃ offset, exec (.breakRecognized ⟨wait, low⟩) s = .next (((s.withCadence { s.cadence with
      clock := s.cadence.clock + wait * 2048, offset := offset, mark := .absent }).withLine { s.line with
        tx := .waiting, sending := [], queue := withoutTransmission s.line.queue }).takeBreak) := by
  obtain ⟨offset, hlost⟩ := State.loseMark_eq hruns
  obtain ⟨offset', ho⟩ := State.toMoment_moved (s := s.loseMark) (by rw [hlost]; exact hruns) (s.cadence.clock + wait * 2048)
  have hmoment : max s.loseMark.cadence.clock (s.cadence.clock + wait * 2048) = s.cadence.clock + wait * 2048 := by
    rw [hlost]
    change max (max _ _) _ = _
    omega
  rw [hmoment, hlost] at ho
  refine ⟨offset', congrArg Host.Outcome.next ((if_neg hrx).trans ((if_pos hown).trans ((if_neg (Nat.not_le_of_lt hlate)).trans ?_)))⟩
  change (s.loseMark.toMoment (s.cadence.clock + wait * 2048)).takeBreak = _
  rw [hlost, ho]
  rfl

end Recognized

/-- Settles O38: another station's break, the own one in time, and the own one too late. -/
theorem breaksRecognized : Obligations.BreaksRecognized := by
  unfold Obligations.BreaksRecognized
  intro s wait low hruns hrx
  refine ⟨fun hlow hother => exec_breakRecognized_short hlow (Bool.eq_false_iff.2 (s.ownBreak_iff.not.2 hother)), fun hlow hsome => ?_⟩
  cases hown : s.ownBreak with
  | false =>
    obtain ⟨offset, tx, backoff, hsame, hexec⟩ := exec_breakRecognized_other hruns hrx wait hlow hown
    exact ⟨_, hexec, ⟨rfl, fun b hb => by cases b <;> simp at hb <;> rfl⟩, rfl, rfl, rfl, rfl, rfl,
      fun _ => ⟨rfl, rfl, rfl, rfl, rfl, rfl, hsame⟩,
      fun q pre post htx hlead => absurd (s.ownBreak_iff.2 ⟨htx, hlead⟩) (Bool.eq_false_iff.1 hown)⟩
  | true =>
    obtain ⟨htx, hlead⟩ := s.ownBreak_iff.1 hown
    obtain ⟨q', hq'⟩ : ∃ q, inTransmission s.line.queue = some q := by
      refine Option.ne_none_iff_exists'.1 fun hnone => hsome ⟨htx, hlead, fun q hq => ?_⟩
      simpa using List.find?_eq_none.1 hnone q hq
    have hnot : ¬(s.line.tx ≠ .brk ∨ s.line.sending ≠ []) := fun h => h.elim (· htx) (· hlead)
    by_cases hintime : s.cadence.clock + wait * 2048 ≤ s.line.txFrom + 32 * 2048
    · obtain ⟨clock, offset, hclock, hexec⟩ := exec_breakRecognized_own hruns hrx hown hq' hintime
      refine ⟨_, hexec, ⟨rfl, fun b hb => by cases b <;> simp at hb <;> rfl⟩, rfl, rfl, rfl, rfl, rfl, fun h => absurd h hnot,
        fun q pre post _ _ hqueue hothers hq => ⟨fun _ => ?_, fun hlate => absurd hintime (Nat.not_le_of_lt hlate)⟩⟩
      obtain rfl := Option.some.inj (hq'.symm.trans (inTransmission_split hqueue hothers hq))
      exact ⟨rfl, hclock, rfl, State.leadingBits hruns htx (Notice.characters_ne_nil _ _) rfl rfl rfl⟩
    · obtain ⟨offset, hexec⟩ := exec_breakRecognized_lost hruns hrx hown (Nat.lt_of_not_le hintime)
      refine ⟨_, hexec, ⟨rfl, fun b hb => by cases b <;> simp at hb <;> rfl⟩, rfl, rfl, rfl, rfl, rfl, fun h => absurd h hnot,
        fun q pre post _ _ hqueue hothers hq => ⟨fun h => absurd h hintime, fun _ => ⟨rfl, rfl, ?_⟩⟩⟩
      rw [← withoutTransmission_split hqueue hothers hq]
      rfl

end Sys2Proof.Machine
end

section
/-! CERTIFICATE. Marks: sent as soon as the line is free, abandoned after 256 ticks, or lost when the line stays low (R9 to R11, R94,
R111). -/

namespace Sys2Proof.Machine

/-! ### A full queue -/

/-- The choice of R111 is the place that the model drops. -/
theorem DropChoice.place {d : Queued} {post : List Queued} : ∀ {pre : List Queued}, DropChoice pre d post → ∀ i,
    dropPlace (pre ++ d :: post) i = some (i + pre.length, d.notice.priority)
  | [], hd, i => by
    cases hrest : dropPlace post (i + 1) with
    | none => simp [dropPlace, hrest, hd.free]
    | some place =>
      obtain ⟨j, p⟩ := place
      obtain ⟨before, x, after, rfl, -, rfl, hx⟩ := dropPlace_some hrest
      have hlower := hd.after x (by simp) hx.free
      simp [dropPlace, hrest, hd.free, hlower]
  | x :: pre, hd, i => by
    have hkept : ¬(x.inTransmission = false ∧ d.notice.priority < x.notice.priority) := fun ⟨hfree, hlt⟩ =>
      Nat.not_le_of_lt hlt (hd.before x (by simp) hfree)
    have hrest := DropChoice.place (pre := pre) ⟨hd.free, fun y hy => hd.before y (List.mem_cons_of_mem _ hy), hd.after⟩ (i + 1)
    simp only [List.cons_append, dropPlace, hrest]
    rw [if_neg (by simpa using hkept)]
    simp only [List.length_cons, Nat.add_comm, Nat.add_left_comm]

/-- An offer at a full queue, of a notice that is in transmission, drops the choice of R111. -/
theorem offerTo_full {pre post : List Queued} {d q : Queued} (hfull : (pre ++ d :: post).length = 12) (hd : DropChoice pre d post)
    (hq : q.inTransmission = true) : offerTo (pre ++ d :: post) q = (pre ++ post ++ [q], some d.notice) := by
  have hlast : DropChoice pre d (post ++ [q]) := ⟨hd.free, hd.before, fun x hx hfree => by
    obtain hx | hx := List.mem_append.1 hx
    · exact hd.after x hx hfree
    · rw [List.mem_singleton.1 hx, hq] at hfree
      cases hfree⟩
  have hplace := hlast.place 0
  rw [Nat.zero_add] at hplace
  have hroom : ¬(pre ++ d :: post).length < maxQueue := by rw [hfull]; decide
  rw [offerTo, if_neg hroom, List.append_assoc, List.cons_append, hplace]
  simp [List.eraseIdx_append_of_length_le]

/-- An offer that finds room drops nothing (R109). -/
theorem offerTo_room {queue : List Queued} (h : queue.length + 1 ≤ 12) (q : Queued) : offerTo queue q = (queue ++ [q], none) :=
  if_pos (Nat.lt_of_succ_le h)

/-! ### The mark begun -/

/-- The break of the mark begun in the state whose cadence unit is `c`, before a drop report is taken (R10, R94). -/
def State.markBegun (s : State) (c : Cadence) (queue : List Queued) (dropped : List Notice) : State :=
  (s.withLine { s.line with
    tx := .brk
    sending := []
    txFrom := c.clock
    idleFrom := c.clock
    lowFrom := some c.clock
    queue := queue
    dropped := dropped }).withCadence { c with mark := .inSending }

/-- The CADENCE of a mark as it stands in the queue (R10, R11). -/
def Cadence.queuedMark (c : Cadence) : Queued := { Queued.fresh (c.markNotice c.offset) with inTransmission := true }

section Begun

variable {s : State} {c : Cadence}

theorem State.markBegun_frame (s : State) (c : Cadence) (queue : List Queued) (dropped : List Notice) :
    SameBut s [.cadence, .line] (s.markBegun c queue dropped) :=
  (s.withLine_frame _).then (State.withCadence_frame _ _) (by simp) (by simp)

theorem State.beginMark_begun (s : State) (c : Cadence) : (s.withCadence c).beginMark =
    s.markBegun c (offerTo s.line.queue c.queuedMark).1 (s.line.dropped ++ (offerTo s.line.queue c.queuedMark).2.toList) := rfl

/-- A drop report that leads to no other is taken from the mark begun. -/
theorem State.markBegun_reported {queue : List Queued} {n : Notice}
    (h : ((s.markBegun c queue []).dropReport .none n).line.dropped = []) :
    (s.markBegun c queue [n]).finishOffers .none = (s.markBegun c queue []).dropReport .none n :=
  State.finishOffers_one rfl h

/-- The drop report of a notice dropped for the mark, by its kind (R111, R130, R145). -/
theorem State.markBegun_drop (s : State) (c : Cadence) (queue : List Queued) (n : Notice) :
    ((∀ id lane part es, n ≠ .verdict id lane part true es) → (∀ id lane a b, n ≠ .call id lane a b) →
      (s.markBegun c queue [n]).finishOffers .none = s.markBegun c queue []) ∧
    (∀ id lane part es, n = .verdict id lane part true es →
      (s.markBegun c queue [n]).finishOffers .none = (s.markBegun c queue []).startHold id) ∧
    ∀ id lane a b, n = .call id lane a b → (∀ x ∈ s.adj.list, ¬(x.callId = id ∧ x.state = .collecting)) →
      (s.markBegun c queue [n]).finishOffers .none = s.markBegun c queue [] := by
  refine ⟨fun hverdict hcall => ?_, ?_, ?_⟩
  · have hreport := State.dropReport_other hverdict hcall (s.markBegun c queue []) .none
    rw [State.markBegun_reported (by rw [hreport]; rfl), hreport]
  · rintro id lane part es rfl
    exact State.markBegun_reported rfl
  · rintro id lane a b rfl hnone
    have hreport := State.dropReport_call_none (s := s.markBegun c queue []) hnone .none lane a b
    rw [State.markBegun_reported (by rw [hreport]; rfl), hreport]

end Begun

/-! ### The three ways of a mark -/

section Ways

variable {s : State}

theorem exec_markSend_held {u : State} (hu : u = s.readEdges 12 2048) (h : u.line.lowFrom ≠ none ∨ u.line.quietFrom ≠ none ∨
    u.line.tx ≠ .waiting ∨ u.cadence.frameIdx ≠ 0) : exec .markSend s = .next u := by
  subst hu
  refine congrArg Host.Outcome.next (if_neg ((State.markWaits_iff _).not.2 ?_))
  rintro ⟨-, hidx, htx, hquiet, hlow⟩
  obtain h | h | h | h := h
  · exact h hlow
  · exact h hquiet
  · exact h htx
  · exact h hidx

theorem exec_markSend_begins {u : State} (hu : u = s.readEdges 12 2048) (hwaits : u.markWaits = true)
    (hoffset : (u.toMoment (u.line.idleFrom + 12 * 2048)).cadence.offset ≤ 255) :
    exec .markSend s = .next ((u.toMoment (u.line.idleFrom + 12 * 2048)).beginMark.finishOffers .none) := by
  subst hu
  exact congrArg Host.Outcome.next ((if_pos hwaits).trans (if_pos hoffset))

theorem exec_markAbandon_absents (hs : s.startup.state = .joined) (hj : s.cadence.join = .joined) (hmark : s.cadence.mark = .pending) :
    ∃ clock, exec .markAbandon s = .next (s.withCadence { s.cadence with
      clock := clock, offset := if s.cadence.frameIdx = 0 then max s.cadence.offset 256 else s.cadence.offset, mark := .absent }) := by
  by_cases hidx : s.cadence.frameIdx = 0
  · obtain ⟨clock, hc⟩ := State.toOffset_joined hs hj 256
    refine ⟨clock, congrArg Host.Outcome.next ((if_pos hmark).trans ?_)⟩
    dsimp only
    rw [if_pos hidx, if_pos hidx, hc]
    rfl
  · refine ⟨s.cadence.clock, congrArg Host.Outcome.next ((if_pos hmark).trans ?_)⟩
    dsimp only
    rw [if_neg hidx, if_neg hidx]

end Ways

/-- Settles O24: the edges decide whether the mark goes out; what a full queue drops for it is reported by its kind. -/
theorem marksSentOrLost : Obligations.MarksSentOrLost := by
  unfold Obligations.MarksSentOrLost
  refine ⟨fun s u hu hs hj => ⟨exec_markSend_held hu, fun hmark hidx htx hquiet hlow hoffset hdropped => ?sent⟩,
    fun s hs hj hmark => ?abandoned, fun s hruns htx hlead => ?lost⟩
  case sent =>
    have hruns : u.clockRuns = true := State.clockRuns_of_joined (by rw [hu, s.readEdges_startup]; exact hs)
    have hexec := exec_markSend_begins hu (u.markWaits_iff.2 ⟨hmark, hidx, htx, hquiet, hlow⟩) hoffset
    obtain ⟨offset, ho⟩ := State.toMoment_moved hruns (u.line.idleFrom + 12 * 2048)
    rw [ho]
    rw [ho, State.beginMark_begun, hdropped, List.nil_append] at hexec
    generalize hc : ({ u.cadence with clock := max u.cadence.clock (u.line.idleFrom + 12 * 2048), offset := offset } : Cadence) = c at hexec
    have hreports := State.finishOffers_frame (u.markBegun c (offerTo u.line.queue c.queuedMark).1
      (offerTo u.line.queue c.queuedMark).2.toList) .none
    have hline := State.finishOffers_line (u.markBegun c (offerTo u.line.queue c.queuedMark).1
      (offerTo u.line.queue c.queuedMark).2.toList) .none
    have hmoved := hreports.blocks .cadence (by decide)
    refine ⟨_, hexec, (u.markBegun_frame c _ _).then hreports (by simp) (by simp), ?_, ?_, ?_, fun mark hmark => ?_⟩
    · rw [hmoved, ← hc]
      rfl
    · rw [hmoved, ← hc]
      rfl
    · rw [hmoved]
      exact hline
    · obtain rfl : mark = c.queuedMark := by
        rw [hmark, hmoved, ← hc]
        rfl
      refine ⟨fun room => ?_, fun pre post d hqueue hfull hfree hbefore hafter => ?_⟩
      · rw [offerTo_room room.fits]
        exact ⟨u.markBegun_frame c _ _, rfl, rfl⟩
      · rw [hqueue] at hfull
        rw [hqueue, offerTo_full hfull ⟨hfree, hbefore, hafter⟩ rfl]
        dsimp only [Option.toList_some]
        obtain ⟨hother, hverdict, hcall⟩ := State.markBegun_drop u c (pre ++ post ++ [c.queuedMark]) d.notice
        refine ⟨fun hv hc => ?_, fun id lane part es hn => ?_, fun id lane a b hn hnone => ?_⟩
        · rw [hother hv hc]
          exact ⟨u.markBegun_frame c _ _, rfl, rfl⟩
        · rw [hverdict id lane part es hn]
          exact ⟨(u.markBegun_frame c _ _).then (State.withAdj_frame _ _) (by simp) (by simp), rfl, rfl, rfl⟩
        · rw [hcall id lane a b hn hnone]
          exact ⟨u.markBegun_frame c _ _, rfl, rfl⟩
  case abandoned =>
    obtain ⟨clock, hexec⟩ := exec_markAbandon_absents hs hj hmark
    refine ⟨_, hexec, s.withCadence_frame _, rfl, ?_, rfl⟩
    unfold Cadence.sameButTime
    rw [← hmark]
    rfl
  case lost =>
    obtain ⟨offset, hlost⟩ := State.loseMark_eq hruns
    have hexec : exec .breakReleaseTimeout s = .next s.loseMark := congrArg Host.Outcome.next (if_pos (s.ownBreak_iff.2 ⟨htx, hlead⟩))
    rw [hlost] at hexec
    exact ⟨_, hexec, (s.withCadence_frame _).then (State.withLine_frame _ _) (by simp) (by simp), rfl, rfl, rfl, rfl⟩

end Sys2Proof.Machine
end

section
/-! CERTIFICATE. LISTENING_EXPIRY and FRAME_START: the frame that begins by itself, and the one reached by counting (R1, R2, R4 to R6, R8 to
R11, R20, R82). -/

namespace Sys2Proof.Machine

/-! ### The end of listening -/

/-- No frame lies between a stamp and itself. -/
theorem loiterClamp_self (now : Stamp) : loiterClamp now now = now := by
  have hdiff : stampDiff now now = 0 := by simp [stampDiff]
  rw [loiterClamp, hdiff]
  rfl

/-- A passage in progress at a joining takes the stamp of its frame 0, and keeps it through the frame start (R81, R82). -/
theorem LaneMonitor.joined_startStamp {l : LaneMonitor} (h : l.passage.inProgress = true) (now : Stamp) :
    ((l.restamp now).frameStart now).startStamp = some now := by
  rw [LaneMonitor.restamp, if_pos h, LaneMonitor.frameStart]
  split
  · simp [loiterClamp_self]
  · rfl

theorem LaneMonitor.restamp_passage (l : LaneMonitor) (now : Stamp) : (l.restamp now).passage = l.passage := by
  unfold LaneMonitor.restamp
  split <;> rfl

/-- The mark of a frame 0 is withheld when a CADENCE has qualified shortly before it (R9). -/
theorem Cadence.markAt_zero (c : Cadence) (tick : Nat) :
    ((∃ q, c.lastQualifying = some q ∧ tick - q ≤ 512) → c.markAt tick 0 false = .absent) ∧
    ((∀ q, c.lastQualifying = some q → 512 < tick - q) → c.markAt tick 0 false = .pending) := by
  rw [Cadence.markAt, if_pos rfl, Bool.false_or, Cadence.recentlyQualified]
  refine ⟨?_, fun h => ?_⟩
  · rintro ⟨q, hq, hnear⟩
    rw [hq]
    exact if_pos (decide_eq_true hnear)
  · cases hq : c.lastQualifying with
    | none => rfl
    | some q =>
      have hfar := h q hq
      exact if_neg (by simp; omega)

theorem exec_listeningExpiry_leads {s : State} (hj : s.cadence.join = .listening) (hs : s.startup.state = .listening) : ∃ c,
    c = { s.cadence with clock := max s.cadence.clock ((s.cadence.listenFrom + 32768) * 15625) } ∧ exec .listeningExpiry s =
      .next ((s.withCadence { c.carryBreak c.selfNumber with selfLed := true }).joinAt c.selfNumber 0 false) := by
  have hruns : s.clockRuns = true := by
    rw [State.clockRuns, hs]
    rfl
  obtain ⟨offset, ho⟩ := State.toMoment_moved hruns ((s.cadence.listenFrom + 32768) * 15625)
  have hstays := State.toMoment_offset_unjoined hruns (by rw [hj]; decide) ((s.cadence.listenFrom + 32768) * 15625)
  rw [ho] at hstays
  obtain rfl : offset = s.cadence.offset := hstays
  refine ⟨_, rfl, congrArg Host.Outcome.next ((if_pos hj).trans ?_)⟩
  have htick : s.toTick (s.cadence.listenFrom + listeningTicks) = s.toMoment ((s.cadence.listenFrom + 32768) * 15625) := rfl
  dsimp only
  rw [htick, ho]
  rfl

/-- Settles O20: the frame 0 that the part begins for itself, its mark by the CADENCE that has not come. -/
theorem listeningExpires : Obligations.ListeningExpires := by
  unfold Obligations.ListeningExpires
  intro s hj hs hlast hrunning hrequest
  obtain ⟨c, hc, hexec⟩ := exec_listeningExpiry_leads hj hs
  have hframe : ∀ c n, SameBut s (.startup :: atFrameStart) ((s.withCadence c).joinAt n 0 false) := fun c n =>
    (s.withCadence_frame c).then (State.joinAt_frame _ _ _ _) (by simp [atFrameStart]) (by simp [atFrameStart])
  have hpending : c.markAt (c.clock / 15625) 0 false = .pending := by
    refine (c.markAt_zero _).2 fun q hq => ?_
    rw [hc, hlast] at hq
    cases hq
  have hposition : ∀ u : State, (u.joinAt c.selfNumber 0 false).tickPosition = 0 := fun u =>
    State.tickPosition_of_start (by rw [State.joinAt_cadence]; rfl) (by rw [State.joinAt_cadence]; rfl)
  refine ⟨_, hexec, hframe _ _, State.joinAt_startup _ _ _ _, ?_⟩
  rw [hposition, State.joinAt_cadence, State.joinAt_field, State.joinAt_lane, FieldDriver.beginFrame_zero]
  have hstill : s.field.taken = false := by rw [FieldDriver.taken, hrequest, hrunning]
  refine ⟨congrArg Cadence.clock hc, ?_, ⟨rfl, rfl, rfl, rfl, hpending, rfl, rfl, rfl, rfl⟩, ?_, ⟨hstill, hstill, rfl⟩, ?_,
    fun hprogress => LaneMonitor.joined_startStamp hprogress _⟩
  · rw [hc]
    rfl
  · rw [hc]
    rfl
  · obtain ⟨-, -, hpassage⟩ := LaneMonitor.frameStart_kept (s.lane.restamp ⟨c.selfNumber, 0⟩) ⟨c.selfNumber, 0⟩
    exact hpassage.trans (s.lane.restamp_passage _)

/-! ### The next frame -/

section Counted

variable {s : State} (hs : s.startup.state = .joined) (hj : s.cadence.join = .joined)
  (hoffset : s.cadence.offset ≤ frameLength s.cadence.frameIdx)
include hs hj hoffset

/-- FRAME_START waits for the ticks that are missing to the end of the frame, and begins the next at its first (R1). -/
theorem exec_frameStart_cadence (view : StatusView) : ∃ clock t, exec (.frameStart view) s = .next t ∧ SameBut s atFrameStart t ∧
    clock / 15625 = s.freeRun + (frameLength s.cadence.frameIdx - s.cadence.offset) ∧
    t.cadence =
      ({ s.cadence with clock := clock, offset := frameLength s.cadence.frameIdx } : Cadence).beginFrame s.stamp.next 0 0 false := by
  obtain ⟨clock, hto⟩ := State.toOffset_joined hs hj (frameLength s.cadence.frameIdx)
  have hticks := (State.toOffset_reaches (State.clockRuns_of_joined hs) hj (frameLength s.cadence.frameIdx)).2
  rw [Nat.max_eq_right hoffset] at hto
  rw [hto] at hticks
  obtain ⟨t, hexec, hframe⟩ := exec_frameStart_moves s view
  refine ⟨clock, t, hexec, hframe, hticks, ?_⟩
  have ht : execFrameStart view s = .next t := hexec
  rw [execFrameStart, if_pos (s.isJoined_iff.2 hj), hto, Host.Outcome.next.injEq] at ht
  rw [← ht, (State.finishOffers_frame _ .none).blocks .cadence (by simp), State.frameStartEvent_cadence]
  exact congrArg (fun o => Cadence.beginFrame _ _ 0 o false) (Nat.sub_self _)

end Counted

/-- Settles O21: the cadence unit at the next stamp, by whether the super-frame ends. -/
theorem frameStartCounts : Obligations.FrameStartCounts := by
  unfold Obligations.FrameStartCounts
  intro s view hs hj hidx hoffset
  obtain ⟨clock, t, hexec, hframe, hticks, hcadence⟩ := exec_frameStart_cadence hs hj hoffset view
  refine ⟨t, hexec, hframe, ?_, fun hbefore => ?_, fun hlast => ?_, ?_⟩
  · rw [State.freeRun, hcadence]
    exact hticks
  · have hnext : s.stamp.next = ⟨s.cadence.superFrame, s.cadence.frameIdx + 1⟩ := if_pos hbefore
    rw [hcadence, hnext]
    exact ⟨rfl, rfl, rfl, rfl⟩
  · have hnext : s.stamp.next = ⟨s.cadence.superFrame + 1, 0⟩ := if_neg (by simp [State.stamp, hlast])
    rw [State.freeRun, hcadence, hnext]
    exact ⟨rfl, rfl, rfl, Cadence.markAt_zero _ _⟩
  · rw [hcadence]
    rfl

end Sys2Proof.Machine
end

section
/-! CERTIFICATE. FILTER_TICK: the beam filters and Table 5-2, and the staff key (R3, R20, R71 to R78, R82, R83, R88, R182). -/

namespace Sys2Proof.Machine

/-! ### The beams -/

/-- The filtered change between two filtered states of a beam. -/
def Change.between (old new : Bool) : Change := if new = old then .same else if new then .broken else .cleared

theorem Beam.sample_change (b : Beam) (raw : Bool) : (b.sample raw).2 = Change.between b.broken (b.sample raw).1.broken := by
  obtain ⟨hchange, hstate, -, -⟩ | ⟨hchange, hold, hnew⟩ | ⟨hchange, hold, hnew⟩ := b.sample_spec raw
  · rw [hchange, hstate, Change.between, if_pos rfl]
  · rw [hchange, hold, hnew]
    rfl
  · rw [hchange, hold, hnew]
    rfl

/-- A sample that leaves the filtered state of its beam leaves its fault too. -/
theorem Beam.sample_stays {b : Beam} {raw : Bool} (h : (b.sample raw).1.broken = b.broken) :
    (b.sample raw).2 = .same ∧ (b.sample raw).1.stuck = b.stuck := by
  obtain ⟨hchange, -, hstuck, -⟩ | ⟨-, hold, hnew⟩ | ⟨-, hold, hnew⟩ := b.sample_spec raw
  · exact ⟨hchange, hstuck⟩
  · simp [hold, hnew] at h
  · simp [hold, hnew] at h

theorem Beam.sample_sampled (b : Beam) (raw : Bool) : BeamSampled b raw (b.sample raw).1 := by
  unfold Beam.sample
  constructor <;> intros <;> simp_all

/-! ### The passage states -/

/-- A row of Table 5-2, with the beams told by their states before and after, is a transition of the model (R73 to R77); none leaves
CLEAR for CLEAR. -/
theorem passageMoves_move : ∀ row ∈ passageMoves, row.1.beams.isSome = true ∧ ∀ b ∈ row.1.beams,
    row.1.move (Change.between b.1 row.2.1) (Change.between b.2 row.2.2.1) =
      (if row.2.2.2.1 = .clear then row.2.2.2.2.elim .balk .complete else .to row.2.2.2.1) ∧
    (row.1 = .clear → row.2.2.2.1 ≠ .clear) := by decide

section React

variable {l : LaneMonitor} (now : Stamp) (ci co : Change)

/-- The state machine moves the passage state, its start stamp and the clear run only. -/
theorem LaneMonitor.react_kept : (l.react now ci co).1.started = l.started ∧ (l.react now ci co).1.inner = l.inner ∧
    (l.react now ci co).1.outer = l.outer := by
  have hwait : l.waitClear.1.started = l.started ∧ l.waitClear.1.inner = l.inner ∧ l.waitClear.1.outer = l.outer := by
    unfold LaneMonitor.waitClear
    split <;> exact ⟨rfl, rfl, rfl⟩
  unfold LaneMonitor.react
  split
  · exact hwait
  · split
    · exact ⟨rfl, rfl, rfl⟩
    · exact hwait
  · split
    · exact ⟨rfl, rfl, rfl⟩
    · exact ⟨rfl, rfl, rfl⟩
    · split <;> exact ⟨rfl, rfl, rfl⟩

/-- The lane after the seeing of both beams (R78). -/
theorem LaneMonitor.waitClear_eq : l.waitClear.1 =
    { l with passage := if l.inner.broken = true ∨ l.outer.broken = true then .waitClear else .clear, startStamp := none } := by
  by_cases hbroken : l.inner.broken = true ∨ l.outer.broken = true
  · rw [if_pos hbroken, LaneMonitor.waitClear, if_pos (by simpa using hbroken)]
  · rw [if_neg hbroken, LaneMonitor.waitClear, if_neg (by simpa using hbroken)]
    rfl

/-- A transition to another state than CLEAR, by the state that it leaves (R82, R83). -/
theorem LaneMonitor.react_to {q : Passage} (hp : l.passage ≠ .waitClear ∧ l.passage ≠ .tagOnly) (hq : q ≠ .clear)
    (hmove : l.passage.move ci co = .to q) : (l.react now ci co).1 = { l with
      passage := q
      startStamp := if l.passage = .clear then some now else l.startStamp
      clearRun := if l.passage = .clear then 0 else l.clearRun } := by
  obtain ⟨hwait, htag⟩ := hp
  unfold LaneMonitor.react
  split
  case h_1 h => exact absurd h hwait
  case h_2 h => exact absurd h htag
  case h_3 =>
    rw [hmove]
    dsimp only
    by_cases hclear : l.passage = .clear
    · rw [if_pos ⟨hclear, hq⟩, if_pos hclear, if_pos hclear]
    · rw [if_neg (fun h => hclear h.1), if_neg hclear, if_neg hclear]

/-- A transition to CLEAR from a state in progress (R77, R79). -/
theorem LaneMonitor.react_clear {d : Option Direction} (hmove : l.passage.move ci co = d.elim .balk .complete) :
    (l.react now ci co).1 = l.toClear := by
  unfold LaneMonitor.react
  split
  case h_1 h => cases d <;> simp [h, Passage.move] at hmove
  case h_2 h => cases d <;> simp [h, Passage.move] at hmove
  case h_3 =>
    rw [hmove]
    cases d <;> rfl

/-- With no change of a beam the lane stays, unless it waits for the beams or its STUCK beams (R73). -/
theorem LaneMonitor.react_same (hwait : l.passage ≠ .waitClear)
    (htag : l.passage = .tagOnly → l.inner.stuck = true ∨ l.outer.stuck = true) :
    (l.react now .same .same).1 = l := by
  unfold LaneMonitor.react
  split
  case h_1 h => exact absurd h hwait
  case h_2 h => rw [if_pos (by simpa using htag h)]
  case h_3 =>
    rw [Passage.move_same]
    dsimp only
    rw [if_neg fun h => h.2 h.1]

theorem LaneMonitor.react_wait (h : l.passage = .waitClear) : l.react now ci co = l.waitClear := by
  rw [LaneMonitor.react, h]

theorem LaneMonitor.react_tagOnly (h : l.passage = .tagOnly) :
    l.react now ci co = if l.inner.stuck = true ∨ l.outer.stuck = true then (l, .nothing) else l.waitClear := by
  rw [LaneMonitor.react, h]
  simp only [Bool.or_eq_true]

end React

/-- The first tick takes the samples, a later one filters them and moves the lane by Table 5-2 (R71 to R78). -/
theorem LaneMonitor.tick_sampled {l : LaneMonitor} (hsound : l.Sound) (now : Stamp) (i o : Bool) :
    LaneSampled l now i o (l.tick false now i o).1 := by
  cases hstarted : l.started with
  | false =>
    have htick : (l.tick false now i o).1 = { l with
        started := true, inner := .first i, outer := .first o,
        passage := if i = true ∨ o = true then .waitClear else .clear, startStamp := none } := by
      rw [LaneMonitor.tick, if_neg Bool.false_ne_true, if_neg (Bool.eq_false_iff.1 hstarted), LaneMonitor.waitClear_eq]
      rfl
    rw [htick]
    constructor <;> simp [hstarted, Beam.first]
  | true =>
    rw [LaneMonitor.tick_started hstarted]
    generalize hm : ({ l with inner := (l.inner.sample i).1, outer := (l.outer.sample o).1 } : LaneMonitor) = m
    obtain ⟨hkept, hinner, houter⟩ := m.react_kept now (l.inner.sample i).2 (l.outer.sample o).2
    have hbeams : m.started = l.started ∧ m.inner = (l.inner.sample i).1 ∧ m.outer = (l.outer.sample o).1 ∧ m.passage = l.passage ∧
      m.startStamp = l.startStamp ∧ m.clearRun = l.clearRun := by subst hm; exact ⟨rfl, rfl, rfl, rfl, rfl, rfl⟩
    obtain ⟨hms, hmi, hmo, hmp, hmstamp, hmrun⟩ := hbeams
    refine ⟨hkept.trans (hms.trans hstarted), fun h => absurd (h.symm.trans hstarted) Bool.false_ne_true,
      fun _ => hinner ▸ hmi ▸ l.inner.sample_sampled i, fun _ => houter ▸ hmo ▸ l.outer.sample_sampled o,
      fun _ hwait hi ho => ?still, fun _ hchanged q d hrow => ?moved, fun _ hwait => ?waits, fun _ htag => ?tagOnly⟩
    case still =>
      rw [hinner, hmi] at hi
      rw [houter, hmo] at ho
      obtain ⟨hci, hsi⟩ := Beam.sample_stays hi
      obtain ⟨hco, hso⟩ := Beam.sample_stays ho
      rw [hci, hco, LaneMonitor.react_same now (by rwa [hmp])
        (fun h => by rw [hmi, hmo, hsi, hso]; exact hsound.tagOnly.1 (hmp.symm.trans h))]
      exact ⟨hmp, hmstamp, hmrun⟩
    case moved =>
      rw [hinner, houter, hmi, hmo] at hrow
      obtain ⟨hsome, hrows⟩ := passageMoves_move _ hrow
      obtain ⟨b, hb⟩ := Option.isSome_iff_exists.1 hsome
      obtain ⟨hmove, hleaves⟩ := hrows b hb
      rw [← hsound.beams b hb, ← Beam.sample_change, ← Beam.sample_change, ← hmp] at hmove
      have hstate : m.passage ≠ .waitClear ∧ m.passage ≠ .tagOnly := by
        rw [hmp]
        constructor <;> (intro h; rw [h] at hb; cases hb)
      by_cases hq : q = .clear
      · rw [if_pos hq] at hmove
        rw [LaneMonitor.react_clear now _ _ hmove, if_pos hq, if_neg fun h => hleaves h hq]
        exact ⟨hq.symm, rfl, hmrun⟩
      · rw [if_neg hq] at hmove
        rw [LaneMonitor.react_to now _ _ hstate hq hmove, if_neg hq, ← hmp, ← hmstamp, ← hmrun]
        exact ⟨rfl, rfl, rfl⟩
    case waits =>
      rw [LaneMonitor.react_wait now _ _ (hmp.trans hwait), LaneMonitor.waitClear_eq]
      exact ⟨rfl, rfl, hmrun⟩
    case tagOnly =>
      have hstart : l.startStamp = none := by simpa [htag, Passage.inProgress] using hsound.start
      rw [LaneMonitor.react_tagOnly now _ _ (hmp.trans htag)]
      by_cases hstuck : m.inner.stuck = true ∨ m.outer.stuck = true
      · rw [if_pos hstuck, if_pos hstuck]
        exact ⟨hmp.trans htag, hmstamp.trans hstart, hmrun⟩
      · rw [if_neg hstuck, LaneMonitor.waitClear_eq, if_neg hstuck]
        exact ⟨rfl, rfl, hmrun⟩

/-- The lane of an end pedestal is CLEAR, and the beams have no part in it (R72). -/
theorem LaneMonitor.tick_endPedestal {l : LaneMonitor} (hsound : l.Sound) (now : Stamp) (i o : Bool) :
    (l.tick true now i o).1.started = true ∧ (l.tick true now i o).1.passage = .clear ∧ (l.tick true now i o).1.startStamp = none ∧
      (l.tick true now i o).1.inner.stuck = false ∧ (l.tick true now i o).1.outer.stuck = false := by
  rw [LaneMonitor.tick, if_pos rfl]
  split
  case isTrue h =>
    obtain ⟨hstarted, hclear⟩ : l.started = true ∧ l.passage = .clear := by simpa using h
    obtain ⟨hinner, houter⟩ := hsound.unstuck (by rw [hclear]; decide)
    exact ⟨hstarted, hclear, by simpa [hclear, Passage.inProgress] using hsound.start, hinner, houter⟩
  case isFalse => exact ⟨rfl, rfl, rfl, rfl, rfl⟩

/-! ### The staff key -/

section Key

variable {s : State}

theorem rawKey_eq (ackLow serviceLow : Bool) : rawKey ackLow serviceLow =
    if ackLow then (if serviceLow then none else some .ack) else if serviceLow then some .service else some .run := by
  cases ackLow <;> cases serviceLow <;> rfl

/-- Off the line the key is not read (R182). -/
theorem State.sampleKey_offLine (h : ¬(s.startup.state = .listening ∨ s.startup.state = .joined)) (raw : Option KeyPosition) :
    s.sampleKey raw = s := if_neg h

/-- The request that a reading of the key leaves, from the position before it to the one after it (R20, R182). -/
def State.requestAfter (s : State) (key : KeyPosition) : Option RunRequest :=
  if s.cadence.join = .joined then
    (if key = .service ∧ (s.startup.keyStarted = false ∨ s.startup.key ≠ .service) then some .stop
    else if s.startup.keyStarted = true ∧ s.startup.key = .service ∧ key ≠ .service then some .run
    else s.field.request)
  else s.field.request

/-- What a reading of the key has left of the start-up block and the field driver. -/
structure KeyRead (s : State) (key : KeyPosition) (waits : Option KeyPosition) (t : State) : Prop where
  startup : t.startup = { s.startup with key := key, keyPending := waits, keyStarted := true }
  field : t.field = { s.field with request := s.requestAfter key }

/-- A movement raises its request (R20), whatever it acknowledges. -/
theorem State.keyMoved_request (s : State) (old new : KeyPosition) : (s.keyMoved old new).startup = s.startup ∧
    (s.keyMoved old new).field = { s.field with request := if s.cadence.join = .joined then
        (if new = .service then some .stop else if old = .service then some .run else s.field.request)
      else s.field.request } := by
  have hack : SameBut s [.alarm, .line] (if new = .ack then s.keyToAck else s) := .ite s.keyToAck_frame (.refl _ _)
  have hstartup := hack.blocks .startup (by decide)
  have hfield := hack.blocks .field (by decide)
  have hcadence := hack.blocks .cadence (by decide)
  unfold State.keyMoved
  generalize (if new = .ack then s.keyToAck else s) = u at hstartup hfield hcadence
  have hrequest : (u.keyRequest old new).field = { u.field with request := if u.cadence.join = .joined then
        (if new = .service then some .stop else if old = .service then some .run else u.field.request)
      else u.field.request } := by
    unfold State.keyRequest
    by_cases hjoined : u.cadence.join = .joined
    · rw [if_pos (u.isJoined_iff.2 hjoined), if_pos hjoined]
      split
      · rfl
      · split <;> rfl
    · rw [if_neg (u.isJoined_iff.not.2 hjoined), if_neg hjoined]
  rw [hrequest, hfield, hcadence]
  exact ⟨((u.keyRequest_frame old new).blocks .startup (by decide)).trans hstartup, rfl⟩

variable (honLine : s.startup.state = .listening ∨ s.startup.state = .joined)
include honLine

/-- The first reading is taken directly, and is no movement (R182). -/
theorem State.sampleKey_first (hstarted : s.startup.keyStarted = false) (raw : Option KeyPosition) :
    KeyRead s (raw.getD .run) none (s.sampleKey raw) := by
  have hrequest : ∀ key, s.requestAfter key = if s.cadence.join = .joined ∧ key = .service then some .stop else s.field.request := by
    intro key
    by_cases hjoined : s.cadence.join = .joined <;> simp [State.requestAfter, hstarted, hjoined]
  rw [State.sampleKey, if_pos honLine, if_neg (Bool.eq_false_iff.1 hstarted), State.firstKey]
  dsimp only
  split
  case isTrue h =>
    obtain ⟨hjoined, hkey⟩ := h
    exact ⟨rfl, by rw [hrequest, if_pos ⟨(State.isJoined_iff _).1 hjoined, hkey⟩]; rfl⟩
  case isFalse h =>
    exact ⟨rfl, by rw [hrequest, if_neg fun hboth => h ⟨(State.isJoined_iff _).2 hboth.1, hboth.2⟩]; rfl⟩

variable (hstarted : s.startup.keyStarted = true)
include hstarted

omit honLine in
/-- A position that stays requests nothing (R20). -/
theorem State.requestAfter_same : s.requestAfter s.startup.key = s.field.request := by
  by_cases hservice : s.startup.key = .service <;> simp [State.requestAfter, hstarted, hservice]

/-- A reading that is invalid, or agrees with the position, moves nothing (R182). -/
theorem State.sampleKey_still {raw : Option KeyPosition} (h : raw = none ∨ raw = some s.startup.key) :
    KeyRead s s.startup.key none (s.sampleKey raw) := by
  have hread : s.sampleKey raw = s.withStartup { s.startup with keyPending := none } := by
    rw [State.sampleKey, if_pos honLine, if_pos hstarted]
    obtain rfl | rfl := h
    · rfl
    · exact if_pos rfl
  rw [hread]
  refine ⟨?_, ?_⟩
  · rw [← hstarted]
    rfl
  · rw [State.requestAfter_same hstarted]
    rfl

/-- A position that is new waits for a second equal reading (R182). -/
theorem State.sampleKey_waits {k : KeyPosition} (hnew : k ≠ s.startup.key) (hwaits : s.startup.keyPending ≠ some k) :
    KeyRead s s.startup.key (some k) (s.sampleKey (some k)) := by
  have hread : s.sampleKey (some k) = s.withStartup { s.startup with keyPending := some k } := by
    rw [State.sampleKey, if_pos honLine, if_pos hstarted, State.nextKey]
    exact (if_neg hnew).trans (if_neg hwaits)
  rw [hread]
  refine ⟨?_, ?_⟩
  · rw [← hstarted]
    rfl
  · rw [State.requestAfter_same hstarted]
    rfl

/-- The second equal reading is a movement (R20, R182). -/
theorem State.sampleKey_moves {k : KeyPosition} (hnew : k ≠ s.startup.key) (hwaits : s.startup.keyPending = some k) :
    KeyRead s k none (s.sampleKey (some k)) := by
  have hread : s.sampleKey (some k) = (s.withStartup { s.startup with key := k, keyPending := none }).keyMoved s.startup.key k := by
    rw [State.sampleKey, if_pos honLine, if_pos hstarted, State.nextKey]
    exact (if_neg hnew).trans (if_pos hwaits)
  have hrequest : s.requestAfter k = if s.cadence.join = .joined then
      (if k = .service then some .stop else if s.startup.key = .service then some .run else s.field.request)
    else s.field.request := by
    have hleft : k = .service → s.startup.key ≠ .service := fun hk hold => hnew (hk.trans hold.symm)
    by_cases hk : k = .service
    · simp [State.requestAfter, hstarted, hk, hleft hk]
    · simp [State.requestAfter, hstarted, hk]
  obtain ⟨hstartup, hfield⟩ := (s.withStartup { s.startup with key := k, keyPending := none }).keyMoved_request s.startup.key k
  rw [hread]
  refine ⟨?_, ?_⟩
  · rw [hstartup, ← hstarted]
    rfl
  · rw [hfield, hrequest]
    rfl

end Key

/-! ### The tick -/

section Tick

variable {s : State} {raw : Option KeyPosition}

/-- However it is read, the key moves itself and the request (R182). -/
theorem State.sampleKey_reads (honLine : s.startup.state = .listening ∨ s.startup.state = .joined) (raw : Option KeyPosition) :
    ∃ key waits, KeyRead s key waits (s.sampleKey raw) := by
  cases hstarted : s.startup.keyStarted with
  | false => exact ⟨_, _, State.sampleKey_first honLine hstarted raw⟩
  | true =>
    by_cases hrests : raw = none ∨ raw = some s.startup.key
    · exact ⟨_, _, State.sampleKey_still honLine hstarted hrests⟩
    · obtain ⟨hsome, hnew⟩ := not_or.1 hrests
      obtain ⟨k, rfl⟩ := Option.ne_none_iff_exists'.1 hsome
      by_cases hwaits : s.startup.keyPending = some k
      · exact ⟨_, _, State.sampleKey_moves honLine hstarted (fun h => hnew (h ▸ rfl)) hwaits⟩
      · exact ⟨_, _, State.sampleKey_waits honLine hstarted (fun h => hnew (h ▸ rfl)) hwaits⟩

theorem State.keyAt_straps (place now : KeyPlace) (raw : Option KeyPosition) :
    (s.keyAt place now raw).startup.straps = s.startup.straps := by
  unfold State.keyAt
  split
  · by_cases honLine : s.startup.state = .listening ∨ s.startup.state = .joined
    · obtain ⟨key, waits, hread⟩ := State.sampleKey_reads honLine raw
      rw [hread.startup]
    · rw [State.sampleKey_offLine honLine]
  · rfl

theorem State.sampleInputs_ticks (s : State) (i o : Bool) (order : TickOrder) (raw : Option KeyPosition) :
    (s.sampleInputs i o order raw).lane = (s.lane.tick s.endPedestal s.stamp i o).1 := by
  have hfirst := s.keyAt_frame order.key .first raw
  have hend : (s.keyAt order.key .first raw).endPedestal = s.endPedestal := by
    rw [State.endPedestal, State.keyAt_straps, State.endPedestal]
  rw [State.sampleInputs, (State.keyAt_frame _ _ _ _).blocks .lane (by decide), State.sampleBeams_lane, hend,
    hfirst.blocks .lane (by decide), State.stamp, hfirst.blocks .cadence (by decide)]
  rfl

/-- What the lane monitor leads to, without the key (R80, R166). -/
abbrev laneBlocks : List Block := .lane :: opened

/-- With the key read before the beams or after them, theirs is the lane's work only. -/
theorem State.sampleBeams_keyless {order : TickOrder} (h : order.key ≠ .between) (s : State) (i o : Bool) (raw : Option KeyPosition) :
    SameBut s laneBlocks (s.sampleBeams i o order raw) := by
  have hnone : ∀ u : State, u.keyAt order.key .between raw = u := fun u => if_neg h
  have hpassage : ∀ (u : State) c, SameBut u laneBlocks (u.takePassage c) := fun u c => (u.takePassage_frame c).mono (by decide)
  have hclear : ∀ (u : State) b, SameBut u laneBlocks (u.takeClear b) := fun u b => (u.takeClear_frame b).mono (by decide)
  refine SameBut.trans (t := s.withLane (s.lane.tick s.endPedestal s.stamp i o).1) ((s.withLane_frame _).mono (by decide)) ?_
  unfold State.sampleBeams State.takeLaneEvent
  dsimp only
  rw [hnone, hnone]
  exact .ite ((hclear _ _).trans (hpassage _ _)) ((hpassage _ _).trans (hclear _ _))

/-- The key is read once: before it and after it there is the lane's work only. -/
theorem State.sampleInputs_key (s : State) (i o : Bool) (order : TickOrder) (raw : Option KeyPosition) :
    ∃ u, SameBut s laneBlocks u ∧ SameBut (u.sampleKey raw) laneBlocks (s.sampleInputs i o order raw) := by
  obtain ⟨place, reportFirst⟩ := order
  cases place with
  | first => exact ⟨s, .refl _ _, State.sampleBeams_keyless (order := ⟨.first, reportFirst⟩) KeyPlace.noConfusion (s.sampleKey raw) i o raw⟩
  | last => exact ⟨_, State.sampleBeams_keyless (order := ⟨.last, reportFirst⟩) KeyPlace.noConfusion s i o raw, .refl _ _⟩
  | between =>
    have hpassage : ∀ (u : State) c, SameBut u laneBlocks (u.takePassage c) := fun u c => (u.takePassage_frame c).mono (by decide)
    have hclear : ∀ (u : State) b, SameBut u laneBlocks (u.takeClear b) := fun u b => (u.takeClear_frame b).mono (by decide)
    have hlane : ∀ l, SameBut s laneBlocks (s.withLane l) := fun l => (s.withLane_frame l).mono (by decide)
    cases reportFirst with
    | true => exact ⟨_, (hlane _).trans (hclear _ _), hpassage _ _⟩
    | false => exact ⟨_, (hlane _).trans (hpassage _ _), hclear _ _⟩

/-- A reading of the key told from other states with the same key, field driver and join state. -/
theorem KeyRead.congr {u t x : State} {key : KeyPosition} {waits : Option KeyPosition} (h : KeyRead u key waits x)
    (hstartup : u.startup = s.startup) (hfield : u.field = s.field) (hjoin : u.cadence.join = s.cadence.join)
    (htstartup : t.startup = x.startup) (htfield : t.field = x.field) : KeyRead s key waits t := by
  have hrequest : u.requestAfter key = s.requestAfter key := by
    rw [State.requestAfter, hstartup, hfield, hjoin, State.requestAfter]
  exact ⟨by rw [htstartup, h.startup, hstartup], by rw [htfield, h.field, hfield, hrequest]⟩

theorem State.toFilterTick_moved (hruns : s.clockRuns = true) : ∃ offset, s.toFilterTick = s.withCadence { s.cadence with
    clock := max s.cadence.clock (s.cadence.nextFilter * 15625), offset := offset, nextFilter := s.cadence.nextFilter + 32 } := by
  obtain ⟨offset, ho⟩ := State.toMoment_moved hruns (s.cadence.nextFilter * 15625)
  refine ⟨offset, ?_⟩
  rw [State.toFilterTick, State.toTick, show Config.unitsPerTick = 15625 from rfl, ho]
  rfl

theorem exec_filterTick_eq (hruns : s.clockRuns = true) (i o a v : Bool) (order : TickOrder) : exec (.filterTick i o a v order) s =
    .next (if s.laneWorks then (s.toFilterTick.sampleInputs i o order (rawKey a v)).finishOffers .none else s.toFilterTick) := by
  have hworks : s.toFilterTick.laneWorks = s.laneWorks := by
    rw [State.laneWorks, s.toFilterTick_frame.blocks .startup (by decide), State.laneWorks]
  refine congrArg Host.Outcome.next ((if_pos hruns).trans ?_)
  dsimp only
  rw [hworks]

theorem State.laneWorks_iff (s : State) : s.laneWorks = true ↔ s.startup.straps ≠ none ∨ s.startup.resumeTo ≠ none := by
  simp [State.laneWorks, Option.isSome_iff_ne_none]

/-- A reading, told of the state after it. -/
theorem KeyRead.told {t : State} {key : KeyPosition} {waits : Option KeyPosition} (h : KeyRead s key waits t) :
    t.startup = { s.startup with key := t.startup.key, keyPending := t.startup.keyPending, keyStarted := true } ∧
      t.startup.key = key ∧ t.startup.keyPending = waits ∧ t.field = { s.field with request := s.requestAfter t.startup.key } := by
  rw [h.field, h.startup]
  exact ⟨rfl, rfl, rfl, rfl⟩

/-- What is read of the key is what the tick leaves of it. -/
theorem KeyRead.of_tick {u : State} (hstartup : u.startup = s.startup) (hfield : u.field = s.field)
    (hjoin : u.cadence.join = s.cadence.join) {key : KeyPosition} {waits : Option KeyPosition}
    (hread : ∀ v : State, v.startup = s.startup → KeyRead v key waits (v.sampleKey raw)) (i o : Bool) (order : TickOrder) :
    KeyRead s key waits ((u.sampleInputs i o order raw).finishOffers .none) := by
  obtain ⟨v, hbefore, hafter⟩ := u.sampleInputs_key i o order raw
  have hlast := hafter.then (State.finishOffers_frame _ .none) (ds := laneBlocks) (by simp) (by simp)
  have hvstartup := (hbefore.blocks .startup (by decide)).trans hstartup
  exact (hread v hvstartup).congr hvstartup ((hbefore.blocks .field (by decide)).trans hfield)
    ((congrArg Cadence.join (hbefore.blocks .cadence (by decide))).trans hjoin) (hlast.blocks .startup (by decide))
    (hlast.blocks .field (by decide))

/-- Off the line the tick leaves the key as it is (R182). -/
theorem State.sampleInputs_offLine {u : State} (hoff : ¬(u.startup.state = .listening ∨ u.startup.state = .joined)) (i o : Bool)
    (order : TickOrder) : ((u.sampleInputs i o order raw).finishOffers .none).startup = u.startup ∧
      ((u.sampleInputs i o order raw).finishOffers .none).field = u.field := by
  obtain ⟨v, hbefore, hafter⟩ := u.sampleInputs_key i o order raw
  have hstartup := hbefore.blocks .startup (by decide)
  rw [State.sampleKey_offLine (by rwa [hstartup])] at hafter
  have hlast := (hbefore.trans hafter).then (State.finishOffers_frame _ .none) (ds := laneBlocks) (by simp) (by simp)
  exact ⟨hlast.blocks .startup (by decide), hlast.blocks .field (by decide)⟩

/-- The readings of R182 by what is read: the first, one that moves nothing, one that waits, and the second equal one. -/
theorem key_told {t : State} (honLine : s.startup.state = .listening ∨ s.startup.state = .joined)
    (hread : ∀ key waits, (∀ x : State, x.startup = s.startup → KeyRead x key waits (x.sampleKey raw)) → KeyRead s key waits t) :
    t.startup = { s.startup with key := t.startup.key, keyPending := t.startup.keyPending, keyStarted := true } ∧
    (s.startup.keyStarted = false → t.startup.key = raw.getD .run ∧ t.startup.keyPending = none) ∧
    (s.startup.keyStarted = true → (raw = none ∨ raw = some s.startup.key) →
      t.startup.key = s.startup.key ∧ t.startup.keyPending = none) ∧
    (s.startup.keyStarted = true → ∀ k, raw = some k → k ≠ s.startup.key →
      (s.startup.keyPending ≠ some k → t.startup.key = s.startup.key ∧ t.startup.keyPending = some k) ∧
      (s.startup.keyPending = some k → t.startup.key = k ∧ t.startup.keyPending = none)) ∧
    t.field = { s.field with request := s.requestAfter t.startup.key } := by
  cases hstarted : s.startup.keyStarted with
  | false =>
    obtain ⟨hstartup, hkey, hpending, hfield⟩ := (hread _ _ fun x hx =>
      State.sampleKey_first (by rw [hx]; exact honLine) (by rw [hx]; exact hstarted) raw).told
    exact ⟨hstartup, fun _ => ⟨hkey, hpending⟩, nofun, nofun, hfield⟩
  | true =>
    by_cases hrests : raw = none ∨ raw = some s.startup.key
    · obtain ⟨hstartup, hkey, hpending, hfield⟩ := (hread s.startup.key none fun x hx => hx ▸
        State.sampleKey_still (by rw [hx]; exact honLine) (by rw [hx]; exact hstarted) (by rw [hx]; exact hrests)).told
      refine ⟨hstartup, nofun, fun _ _ => ⟨hkey, hpending⟩, fun _ k hk hnew => ?_, hfield⟩
      obtain hnone | hsame := hrests
      · exact absurd (hnone.symm.trans hk) (by simp)
      · exact absurd (Option.some.inj (hk.symm.trans hsame)) hnew
    · obtain ⟨hsome, hnew⟩ := not_or.1 hrests
      obtain ⟨k, hk⟩ := Option.ne_none_iff_exists'.1 hsome
      rw [hk] at hread hnew hrests ⊢
      have hnew : k ≠ s.startup.key := fun h => hnew (congrArg some h)
      by_cases hwaits : s.startup.keyPending = some k
      · obtain ⟨hstartup, hkey, hpending, hfield⟩ := (hread k none fun x hx =>
          State.sampleKey_moves (by rw [hx]; exact honLine) (by rw [hx]; exact hstarted) (by rw [hx]; exact hnew)
            (by rw [hx]; exact hwaits)).told
        refine ⟨hstartup, nofun, fun _ h => absurd h hrests, ?_, hfield⟩
        rintro - _ ⟨⟩ -
        exact ⟨fun h => absurd hwaits h, fun _ => ⟨hkey, hpending⟩⟩
      · obtain ⟨hstartup, hkey, hpending, hfield⟩ := (hread s.startup.key (some k) fun x hx => hx ▸
          State.sampleKey_waits (by rw [hx]; exact honLine) (by rw [hx]; exact hstarted) (by rw [hx]; exact hnew)
            (by rw [hx]; exact hwaits)).told
        refine ⟨hstartup, nofun, fun _ h => absurd h hrests, ?_, hfield⟩
        rintro - _ ⟨⟩ -
        exact ⟨fun _ => ⟨hkey, hpending⟩, fun h => absurd h hwaits⟩

end Tick

/-- Settles O33: the tick's own time, the lane monitor's tick and the reading of the key each have their part of the state. -/
theorem filterTickReadsKey : Obligations.FilterTickReadsKey := by
  unfold Obligations.FilterTickReadsKey
  intro s i o a v order hruns
  obtain ⟨offset, htick⟩ := State.toFilterTick_moved hruns
  have hexec := exec_filterTick_eq hruns i o a v order
  by_cases hworks : s.laneWorks = true
  · rw [if_pos hworks, htick] at hexec
    generalize hu : s.withCadence { s.cadence with
      clock := max s.cadence.clock (s.cadence.nextFilter * 15625), offset := offset, nextFilter := s.cadence.nextFilter + 32 } = u at hexec
    have hframe := (u.sampleInputs_frame i o order (rawKey a v)).then (State.finishOffers_frame _ .none) (ds := inputBlocks)
      (by simp) (by simp)
    have hcadence := hframe.blocks .cadence (by decide)
    have hlane : ((u.sampleInputs i o order (rawKey a v)).finishOffers .none).lane = (s.lane.tick s.endPedestal s.stamp i o).1 := by
      rw [(State.finishOffers_frame _ .none).blocks .lane (by simp), State.sampleInputs_ticks, ← hu]
      rfl
    have hread : ∀ key waits, (∀ x : State, x.startup = s.startup → KeyRead x key waits (x.sampleKey (rawKey a v))) →
        KeyRead s key waits ((u.sampleInputs i o order (rawKey a v)).finishOffers .none) := fun key waits h =>
      KeyRead.of_tick (by rw [← hu]; rfl) (by rw [← hu]; rfl) (by rw [← hu]; rfl) h i o order
    refine ⟨_, hexec, (hu ▸ s.withCadence_frame _ : SameBut s [.cadence] u).then hframe (by simp) (by simp), ?_⟩
    rw [hcadence, hlane]
    refine ⟨by rw [← hu]; rfl, by rw [← hu]; rfl, by rw [← hu]; rfl,
      fun hstraps hresume => absurd (s.laneWorks_iff.1 hworks) (by simp [hstraps, hresume]), fun _ => ⟨fun hsound hend => ?lane,
        fun hsound hend => ?pedestal, fun hlisten hjoined => ?off, fun honLine raw hraw => ?key⟩⟩
    case lane =>
      rw [hend]
      exact LaneMonitor.tick_sampled hsound s.stamp i o
    case pedestal =>
      rw [hend]
      exact LaneMonitor.tick_endPedestal hsound s.stamp i o
    case off =>
      have hoff : ¬(u.startup.state = .listening ∨ u.startup.state = .joined) := by
        rw [← hu]
        exact fun h => h.elim hlisten hjoined
      obtain ⟨hstartup, hfield⟩ := State.sampleInputs_offLine hoff i o order (raw := rawKey a v)
      rw [hstartup, hfield, ← hu]
      exact ⟨rfl, rfl⟩
    case key =>
      obtain rfl : rawKey a v = raw := (rawKey_eq a v).trans hraw.symm
      exact key_told honLine hread
  · rw [if_neg hworks, htick] at hexec
    exact ⟨_, hexec, (s.withCadence_frame _).mono (by simp), rfl, rfl, rfl, fun _ _ => s.withCadence_frame _,
      fun h => absurd (s.laneWorks_iff.2 h) hworks⟩

end Sys2Proof.Machine
end

section
/-! SUPPORT. A notice heard, and what a CADENCE does to each block: the change of number, the frame 0 begun, and the drop reports that
follow (R8, R13 to R17, R117, R120 to R122, R132, R149). -/

namespace Sys2Proof.Machine

/-! ### The sender -/

section Sender

variable (s : State)

/-- The neighbour table after a notice of another station (R117, R120). -/
def State.hearing (s : State) (p : Nat) : Neighbours := { s.neighbours with
  lineSilence := 0
  lineSilent := false
  west := if 2 ≤ s.position ∧ p + 1 = s.position then { s.neighbours.west with presence := .present, silence := 0 }
    else s.neighbours.west
  east := if s.position ≤ 8 ∧ p = s.position + 1 then { s.neighbours.east with presence := .present, silence := 0 }
    else s.neighbours.east }

/-- The neighbour table after a clash trigger (R121). -/
def State.clashing (s : State) : Neighbours :=
  { s.neighbours with clash := true, clashCount := 0, lineSilence := 0, lineSilent := false }

theorem State.fromWest_iff (p : Nat) : s.fromWest p = true ↔ 2 ≤ s.position ∧ p + 1 = s.position := by
  simp [State.fromWest, State.keepsWest]

theorem State.fromEast_iff (p : Nat) : s.fromEast p = true ↔ s.position ≤ 8 ∧ p = s.position + 1 := by
  simp [State.fromEast, State.keepsEast]

theorem State.hearStation_eq (p : Nat) : s.hearStation p = s.withNeighbours (s.hearing p) := by
  rw [State.hearStation, State.hearing]
  simp only [s.fromWest_iff, s.fromEast_iff]
  rfl

/-- The adjudications abandoned and the EVIDENCE withdrawn, as one change of the queue and the list (R132, R149). -/
theorem State.abandonAll_withdrawEvidence_eq : s.abandonAll.withdrawEvidence =
    (s.withLine { s.line with queue := s.queueWithdrawn }).withAdj { s.adj with list := [] } :=
  congrArg (fun l => (s.withLine l).withAdj { s.adj with list := [] }) s.abandonAll_withdrawEvidence_line

/-- A notice of another station moves the neighbour table only (R105). -/
theorem State.hearSender_other_eq {p : Nat} (hp : p ≠ s.position) : s.hearSender p = s.withNeighbours (s.hearing p) :=
  (State.hearSender_other hp).trans (s.hearStation_eq p)

/-- A notice under the own position sets the clash, and abandons what is open when it is newly set (R121, R122, R132). -/
theorem State.hearSender_own_eq : s.hearSender s.position = if s.neighbours.clash then s.withNeighbours s.clashing
    else ((s.withNeighbours s.clashing).withLine { s.line with queue := s.queueWithdrawn }).withAdj { s.adj with list := [] } := by
  have hsame : (s.hearStation s.position).neighbours = { s.neighbours with lineSilence := 0, lineSilent := false } := by
    rw [s.hearStation_eq, State.withNeighbours_neighbours, State.hearing, if_neg (by omega), if_neg (by omega)]
  have hclash : (s.hearStation s.position).neighbours.clash = s.neighbours.clash := by rw [hsame]
  have hset : (s.hearStation s.position).withNeighbours { (s.hearStation s.position).neighbours with clash := true, clashCount := 0 } =
      s.withNeighbours s.clashing := by
    rw [hsame]
    rfl
  rw [State.hearSender_own, State.clashTrigger]
  dsimp only
  rw [hclash, hset, State.abandonAll_withdrawEvidence_eq]
  rfl

end Sender

/-! ### A change of number -/

/-- The effects of a change of number, block by block (R17, R132, R149). -/
theorem State.numberChanged_eq (s : State) : s.numberChanged = (((s.withLine { s.line with queue := s.queueWithdrawn }).withAdj
    { s.adj with list := [], claims := [] }).withSightings []).withLane (s.lane.restamp s.stamp) := by
  rw [State.numberChanged, State.abandonAll_withdrawEvidence_eq]
  rfl

/-- The state with the effects of a change of number unless `n` is the number `m` already (R17). -/
def State.numbered (s : State) (n m : BitVec 16) : State := if n = m then s else s.numberChanged

section Numbered

variable (s : State) (n m : BitVec 16)

theorem State.numbered_frame : SameBut s [.line, .adj, .sightings, .lane] (s.numbered n m) :=
  .ite (.refl _ _) (s.numberChanged_frame.mono (by decide))

theorem State.numbered_line : (s.numbered n m).line =
    { s.line with queue := if n = m then s.line.queue else s.queueWithdrawn } := by
  unfold State.numbered
  split
  · rfl
  · rw [s.numberChanged_eq]
    rfl

variable {n m}

theorem State.numbered_same (h : n = m) : s.numbered n m = s := if_pos h

theorem State.numbered_changed (h : n ≠ m) : s.numbered n m = (((s.withLine { s.line with queue := s.queueWithdrawn }).withAdj
    { s.adj with list := [], claims := [] }).withSightings []).withLane (s.lane.restamp s.stamp) :=
  (if_neg h).trans s.numberChanged_eq

/-- A change of number opens no adjudication. -/
theorem State.numbered_closed (h : s.adj.list = []) : (s.numbered n m).adj.list = [] := by
  unfold State.numbered
  split
  · exact h
  · rw [s.numberChanged_eq]
    rfl

end Numbered

/-! ### A frame 0 -/

/-- From position 1 on no STATUS is offered at a frame 0, so that the line is left as it is (R114). -/
theorem State.frameStartEvent_zero_line {s : State} (hposition : 1 ≤ s.position) (n : BitVec 16) (off at0 : Nat) (adopted : Bool)
    (view : StatusView) : (s.frameStartEvent ⟨n, 0⟩ off at0 adopted view).line = s.line := by
  obtain ⟨u, heq, hline, hstartup, hindex⟩ := s.frameStartEvent_offers ⟨n, 0⟩ off at0 adopted view
  have hother : u.cadence.frameIdx ≠ 2 * u.position := by
    rw [hindex, State.position_congr hstartup]
    show (0 : Nat) ≠ 2 * s.position
    omega
  rw [heq, State.offerStatus, if_neg hother, hline]

/-- Whatever it offers, a frame start moves the queue of the line only. -/
theorem State.frameStartEvent_line_queue (s : State) (st : Stamp) (off at0 : Nat) (adopted : Bool) (view : StatusView) :
    s.line.sameButQueue (s.frameStartEvent st off at0 adopted view).line := by
  obtain ⟨u, heq, hline, -⟩ := s.frameStartEvent_offers st off at0 adopted view
  rw [heq, ← hline, State.offerStatus]
  split
  · exact State.offerAll_line [_] u
  · rfl

/-- A joining is the frame start of its frame 0 but for the request (R8, R20). -/
theorem State.joinAt_event (s : State) (n : BitVec 16) (off : Nat) (adopted : Bool) : ∃ u : State,
    SameBut s [.cadence, .startup, .lane] u ∧ u.position = s.position ∧
      SameBut (u.frameStartEvent ⟨n, 0⟩ off off adopted .before) [.field] (s.joinAt n off adopted) := by
  refine ⟨((s.withCadence { s.cadence with join := .joined }).withStartup { s.startup with state := .joined }).withLane
    (s.lane.restamp ⟨n, 0⟩), ⟨rfl, fun b hb => by cases b <;> simp at hb <;> rfl⟩, rfl, ?_⟩
  exact .ite (.refl _ _) (State.raiseRequest_frame _ _)

/-! ### Drop reports with no adjudication -/

/-- With no adjudication in the list a drop report changes nothing (R130, R145). -/
theorem State.dropReport_closed {s : State} (h : s.adj.list = []) (ties : Ties) (n : Notice) : s.dropReport ties n = s := by
  unfold State.dropReport
  split
  · simp [h]
  · have hlist : s.adj = { s.adj with list := [] } := by rw [← h]
    rw [State.startHold, State.withList, h, List.map_nil, ← hlist]
    rfl
  · rfl

theorem State.takeReports_closed (ties : Ties) : ∀ (fuel : Nat) {s : State}, s.adj.list = [] →
    SameBut s [.line] (s.takeReports ties fuel)
  | 0, s, _ => .refl _ _
  | fuel + 1, s, h => by
    unfold State.takeReports
    split
    · exact .refl _ _
    · rw [State.dropReport_closed (by exact h)]
      exact (s.withLine_frame _).trans (State.takeReports_closed ties fuel (by exact h))

/-- With no adjudication in the list the reports that wait reach no block but the line. -/
theorem State.finishOffers_closed {s : State} (h : s.adj.list = []) (ties : Ties) : SameBut s [.line] (s.finishOffers ties) :=
  State.takeReports_closed ties _ h

end Sys2Proof.Machine
end

section
/-! SUPPORT. A notice heard, block by block, and a CADENCE from its notice to the state it leads to: the end of listening, or the judgement
while JOINED with its number (R8, R12 to R17, R105, R121, R132, R149). -/

namespace Sys2Proof.Machine

/-! ### The queue withdrawn -/

/-- What is withdrawn goes by the call ids of the list. -/
theorem State.withdraws_congr {s t : State} (h : t.adj.list.map Adjudication.callId = s.adj.list.map Adjudication.callId) :
    t.withdraws = s.withdraws := by
  have hany : ∀ u : State, ∀ id, u.adj.list.any (fun a => a.callId == id) = (u.adj.list.map Adjudication.callId).any (· == id) :=
    fun u id => by rw [List.any_map]; rfl
  funext notice
  cases notice <;> simp only [State.withdraws, hany, h]

theorem State.queueWithdrawn_congr {s t : State} (hqueue : t.line.queue = s.line.queue)
    (hids : t.adj.list.map Adjudication.callId = s.adj.list.map Adjudication.callId) : t.queueWithdrawn = s.queueWithdrawn := by
  rw [State.queueWithdrawn, hqueue, State.withdraws_congr hids]
  rfl

/-- Withdrawn once more, with no adjudication left, the queue stays. -/
theorem State.queueWithdrawn_again {s t : State} (hqueue : t.line.queue = s.queueWithdrawn) (hlist : t.adj.list = []) :
    t.queueWithdrawn = s.queueWithdrawn := by
  have hfewer : ∀ notice, t.withdraws notice = true → s.withdraws notice = true := by
    intro notice h
    cases notice <;> simp_all [State.withdraws]
  rw [State.queueWithdrawn, hqueue, State.queueWithdrawn, List.filterMap_filterMap]
  refine List.filterMap_congr fun q _ => ?_
  cases hs : s.withdraws q.notice with
  | false =>
    have ht : t.withdraws q.notice = false := Bool.eq_false_iff.2 fun h => Bool.eq_false_iff.1 hs (hfewer _ h)
    simp [ht]
  | true => cases q.inTransmission <;> simp

/-! ### A notice heard -/

/-- Whether a notice from `p` sets the clash newly, and so abandons what is open (R121, R122). -/
abbrev State.newClash (s : State) (p : Nat) : Prop := p = s.position ∧ s.neighbours.clash = false

/-- What `t` is when a notice from position `p` has been heard in `s`. -/
structure HeardTo (s : State) (p : Nat) (t : State) : Prop where
  frame : SameBut s [.neighbours, .line, .adj] t
  neighbours : t.neighbours = if p = s.position then s.clashing else s.hearing p
  adj : t.adj = if s.newClash p then { s.adj with list := [] } else s.adj
  line : t.line = { s.line with rx := .hunting, queue := if s.newClash p then s.queueWithdrawn else s.line.queue }

section Heard

variable (s : State) (p : Nat)

theorem State.takeNotice_heard : HeardTo s p (s.takeNotice p) := by
  by_cases hp : p = s.position
  · obtain rfl := hp
    have heq : s.takeNotice s.position = _ := (s.withLine { s.line with rx := .hunting }).hearSender_own_eq
    cases hclash : s.neighbours.clash with
    | true =>
      rw [if_pos (by exact hclash)] at heq
      refine ⟨s.takeNotice_frame _, ?_, ?_, ?_⟩
      all_goals simp only [State.newClash, hclash, Bool.true_eq_false, and_false, if_true, if_false]; rw [heq]; rfl
    | false =>
      rw [if_neg (by simp [hclash])] at heq
      refine ⟨s.takeNotice_frame _, ?_, ?_, ?_⟩
      all_goals simp only [State.newClash, hclash, and_self, if_true]; rw [heq]; rfl
  · have heq : s.takeNotice p = _ := (s.withLine { s.line with rx := .hunting }).hearSender_other_eq hp
    refine ⟨s.takeNotice_frame _, ?_, ?_, ?_⟩
    all_goals simp only [State.newClash, hp, false_and, if_false]; rw [heq]; rfl

variable {s p} {t : State} (h : HeardTo s p t)
include h

theorem HeardTo.list : t.adj.list = if s.newClash p then [] else s.adj.list := by
  rw [h.adj]
  split <;> rfl

theorem HeardTo.closed (hlist : s.adj.list = []) : t.adj.list = [] := by
  rw [h.list, hlist, ite_self]

/-- A newly set clash withdraws what a change of number would withdraw after it. -/
theorem HeardTo.withdrawn : t.queueWithdrawn = s.queueWithdrawn := by
  by_cases hnew : s.newClash p
  · exact State.queueWithdrawn_again (by rw [h.line, if_pos hnew]) (by rw [h.list, if_pos hnew])
  · exact State.queueWithdrawn_congr (by rw [h.line, if_neg hnew]) (by rw [h.list, if_neg hnew])

end Heard

/-! ### The number, and the reports that wait -/

/-- What `t` is when the number `n` has been taken for `m` in `v`, and the reports that wait have been taken. -/
structure NumberedTo (v : State) (n m : BitVec 16) (t : State) : Prop where
  frame : SameBut v [.line, .adj, .sightings, .lane] t
  queue : v.line.sameButQueue t.line
  lane : t.lane = if n = m then v.lane else v.lane.restamp v.stamp
  emptied : n ≠ m → t.sightings = [] ∧ t.adj = { v.adj with list := [], claims := [] }
  closed : v.adj.list = [] → t.adj.list = []
  quiet : v.line.dropped = [] → t = v.numbered n m
  line : v.line.dropped = [] → t.line = { v.line with queue := if n = m then v.line.queue else v.queueWithdrawn }

theorem State.numbered_finished (v : State) (n m : BitVec 16) : NumberedTo v n m ((v.numbered n m).finishOffers .none) := by
  have hreports := (v.numbered n m).finishOffers_frame .none
  have hqueue := (v.numbered n m).finishOffers_line .none
  have hquiet : v.line.dropped = [] → (v.numbered n m).finishOffers .none = v.numbered n m := fun h =>
    State.finishOffers_none .none (by rw [State.numbered_line]; exact h)
  refine ⟨(v.numbered_frame n m).then hreports (by simp) (by simp), ?_, ?_, fun hn => ?_, fun hlist => ?_, hquiet, fun h => ?_⟩
  · refine RowLine.sameButQueue.trans ?_ hqueue
    rw [State.numbered_line]
    rfl
  · rw [hreports.blocks .lane (by decide), State.numbered]
    split
    · rfl
    · rw [v.numberChanged_eq]
      rfl
  · have hnumbered := v.numbered_changed hn
    have hclosed := State.finishOffers_closed (s := v.numbered n m) (by rw [hnumbered]; rfl) .none
    rw [hclosed.blocks .sightings (by decide), hclosed.blocks .adj (by decide), hnumbered]
    exact ⟨rfl, rfl⟩
  · have hnone := v.numbered_closed (n := n) (m := m) hlist
    rw [(State.finishOffers_closed hnone .none).blocks .adj (by decide)]
    exact hnone
  · rw [hquiet h, State.numbered_line]

/-! ### The phase action -/

/-- What a phase action leaves of the queue, the list and the passage. -/
structure ActedTo (s v : State) : Prop where
  frame : SameBut s frameBlocks v
  queue : s.line.sameButQueue v.line
  line : 1 ≤ s.position → v.line = s.line
  ids : v.adj.list.map Adjudication.callId = s.adj.list.map Adjudication.callId
  passage : v.lane.passage = s.lane.passage

/-- A change of the cadence unit alone. -/
theorem State.withCadence_acted (s : State) (c : Cadence) : ActedTo s (s.withCadence c) :=
  ⟨(s.withCadence_frame c).mono (by simp), rfl, fun _ => rfl, rfl, rfl⟩

/-- A frame 0 begun at once, whatever the drive was. -/
theorem State.frameStartEvent_acted {s u : State} (hu : SameBut s [.field] u) (n : BitVec 16) (off at0 : Nat) (adopted : Bool)
    (view : StatusView) : ActedTo s (u.frameStartEvent ⟨n, 0⟩ off at0 adopted view) := by
  have hline : u.line = s.line := hu.blocks .line (by decide)
  refine ⟨hu.then (State.frameStartEvent_frame _ _ _ _ _ _) (by simp) (by simp), ?_, fun hposition => ?_, ?_, ?_⟩
  · rw [← hline]
    exact u.frameStartEvent_line_queue _ _ _ _ _
  · rw [State.frameStartEvent_zero_line (by rwa [State.position_congr (hu.blocks .startup (by decide))]), hline]
  · rw [State.frameStartEvent_adj, hu.blocks .adj (by decide), List.map_map]
    refine List.map_congr_left fun a _ => ?_
    exact a.countDown_callId
  · obtain ⟨-, -, hpassage⟩ := u.lane.frameStart_kept ⟨n, 0⟩
    rw [State.frameStartEvent_lane, hpassage, hu.blocks .lane (by decide)]

theorem ActedTo.closed {s v : State} (h : ActedTo s v) (hlist : s.adj.list = []) : v.adj.list = [] := by
  have hids := h.ids
  rw [hlist] at hids
  simpa using hids

theorem Cadence.renumber_eq (c : Cadence) (n m : BitVec 16) :
    c.renumber n m = { c with superFrame := if n = m then c.superFrame else n } := by
  unfold Cadence.renumber
  split <;> rfl

section Phase

variable (s : State) (b : PendingBreak) (n m : BitVec 16) (d : Byte) {e dd : Int}

theorem State.phaseAction_kept (hlow : 0 ≤ dd) (hhigh : dd ≤ 512) : s.phaseAction b n m d e dd =
    s.withCadence { s.cadence with
      mark := if s.cadence.mark = .pending then .absent else s.cadence.mark
      superFrame := if n = m then s.cadence.superFrame else n } := by
  rw [State.phaseAction, if_pos ⟨hlow, hhigh⟩, Cadence.renumber_eq]
  rfl

theorem State.phaseAction_moved (hlow : -512 ≤ dd) (hhigh : dd < 0) (hframe : e < 0 ∨ s.cadence.frameIdx = 0) {k : Nat}
    (hk : k = if e < 0 then (-dd).toNat else d.toNat + 3 + s.ticksSince b - s.cadence.offset) :
    s.phaseAction b n m d e dd = s.withCadence { s.cadence with
      offset := s.cadence.offset + k
      skips := s.cadence.skips ++ [(s.cadence.offset, k)]
      adoptedFrame := true
      mark := if s.cadence.mark = .pending then .absent else s.cadence.mark
      superFrame := if n = m then s.cadence.superFrame else n } := by
  have hplace : (if 0 ≤ e then d.toNat + 3 + s.ticksSince b - s.cadence.offset else (-dd).toNat) = k := by
    rw [hk]
    by_cases he : e < 0
    · rw [if_pos he, if_neg (by omega)]
    · rw [if_neg he, if_pos (by omega)]
  have hother : ¬(0 ≤ e ∧ s.cadence.frameIdx ≠ 0) := by
    rintro ⟨he, hidx⟩
    exact hframe.elim (by omega) hidx
  unfold State.phaseAction
  dsimp only
  rw [if_neg (by omega), if_pos ⟨hlow, hhigh⟩, if_neg hother, hplace, Cadence.renumber_eq]
  rfl

/-- A CADENCE that begins a new frame 0, with the drive stopped before it or not. -/
theorem State.phaseAction_begun (hbegun : (-512 ≤ dd ∧ dd < 0 ∧ 0 ≤ e ∧ s.cadence.frameIdx ≠ 0) ∨ dd < -512 ∨ 512 < dd) :
    ∃ u, SameBut s [.field] u ∧ u.field.taken = s.field.taken ∧ s.phaseAction b n m d e dd =
      u.frameStartEvent ⟨n, 0⟩ (d.toNat + 3 + s.ticksSince b) (d.toNat + 3 + s.ticksSince b) true .before := by
  unfold State.phaseAction
  dsimp only
  rw [if_neg (by omega)]
  by_cases hmove : -512 ≤ dd ∧ dd < 0
  · rw [if_pos hmove, if_pos (by omega)]
    exact ⟨s, .refl _ _, rfl, rfl⟩
  · rw [if_neg hmove]
    exact ⟨_, s.withField_frame _, rfl, rfl⟩

theorem State.phaseAction_acted (e dd : Int) : ActedTo s (s.phaseAction b n m d e dd) := by
  unfold State.phaseAction
  dsimp only
  split_ifs
  · exact s.withCadence_acted _
  · exact State.frameStartEvent_acted (.refl _ _) _ _ _ _ _
  · exact s.withCadence_acted _
  · exact s.withCadence_acted _
  · exact State.frameStartEvent_acted (s.withField_frame _) _ _ _ _ _

end Phase

/-! ### The command -/

section Command

variable {s : State} {p : Nat} {n : BitVec 16} {d : Byte} {f g : Bool}

theorem exec_receiveCadence_eq (h : s.incoming = some (p, .cadence n d f g)) :
    exec .receiveCadence s = .next (((s.takeNotice p).hearCadence n d).finishOffers .none) := by
  change execReceiveCadence s = _
  simp only [execReceiveCadence, h]

/-- A CADENCE with no break of its own, or while the part is NOT JOINED, discards what break is pending (R12). -/
theorem State.hearCadence_ignored (h : (∀ b, s.cadence.pendingBreak = some b → b.paired = false) ∨ s.cadence.join = .notJoined) :
    s.hearCadence n d = s.dropBreak := by
  unfold State.hearCadence
  split
  case h_3 => rfl
  all_goals
    rename_i b hbreak hjoin
    obtain ⟨hb, hpaired⟩ := Option.filter_eq_some_iff.1 hbreak
    rcases h with h | h
    · exact absurd hpaired (by simp [h b hb])
    · exact absurd (hjoin.symm.trans h) (by simp)

variable {b : PendingBreak} (hbreak : s.cadence.pendingBreak = some b) (hpaired : b.paired = true)
include hbreak hpaired

theorem State.hearCadence_listening (hjoin : s.cadence.join = .listening) : s.hearCadence n d =
    ((s.withCadence { s.cadence with lastQualifying := some s.freeRun, selfLed := false, pendingBreak := none }).numbered n
      s.cadence.superFrame).joinAt n (d.toNat + 3 + s.ticksSince b) true := by
  have hfilter : s.cadence.pendingBreak.filter PendingBreak.paired = some b := by rw [hbreak, Option.filter_some, if_pos hpaired]
  rw [State.hearCadence, hfilter, hjoin]
  rfl

theorem State.hearCadence_joined (hjoin : s.cadence.join = .joined) : s.hearCadence n d = s.dropBreak.judgeCadence b n d := by
  have hfilter : s.cadence.pendingBreak.filter PendingBreak.paired = some b := by rw [hbreak, Option.filter_some, if_pos hpaired]
  rw [State.hearCadence, hfilter, hjoin]

end Command

/-- D and M as R13 has them are those of the model. -/
theorem judged_items {b : PendingBreak} {d : Byte} {m : BitVec 16} {e dd : Int} (he : e = (b.position : Int) - (d.toNat + 3))
    (hnear : e < 8192 → dd = e ∧ m = b.superFrame) (hfar : 8192 ≤ e → dd = e - 16384 ∧ m = b.superFrame + 1) :
    breakError b d = e ∧ phaseOffset e = dd ∧ ownNumber b e = m := by
  refine ⟨he.symm, ?_⟩
  unfold phaseOffset ownNumber
  by_cases h : e < 8192
  · rw [if_pos h, if_pos h, (hnear h).1, (hnear h).2]
    exact ⟨rfl, rfl⟩
  · rw [if_neg h, if_neg h, (hfar (by omega)).1, (hfar (by omega)).2]
    exact ⟨rfl, rfl⟩

/-- The state `u`, in which the CADENCE has been heard, with it recorded in the cadence unit of `s` (R13). -/
def State.recorded (s u : State) : State :=
  u.withCadence { s.cadence with pendingBreak := none, lastQualifying := some s.freeRun, selfLed := false }

section Judged

variable {s : State} {p : Nat} {n m : BitVec 16} {d : Byte} {f g : Bool} {b : PendingBreak} {e dd : Int}
  (hincoming : s.incoming = some (p, .cadence n d f g))
include hincoming

/-- A CADENCE that has no effect on the cadence unit but for the break (R12). -/
theorem exec_receiveCadence_ignored
    (h : (∀ b, s.cadence.pendingBreak = some b → b.paired = false) ∨ s.cadence.join = .notJoined) :
    ∃ u, HeardTo s p u ∧ exec .receiveCadence s = .next (u.dropBreak.finishOffers .none) := by
  have hheard := s.takeNotice_heard p
  have hsame := hheard.frame.blocks .cadence (by decide)
  rw [exec_receiveCadence_eq hincoming, State.hearCadence_ignored (by rw [hsame]; exact h)]
  exact ⟨_, hheard, rfl⟩

variable (hbreak : s.cadence.pendingBreak = some b) (hpaired : b.paired = true)
include hbreak hpaired

/-- The adoption at the end of listening (R8, R17). -/
theorem exec_receiveCadence_listening (hjoin : s.cadence.join = .listening) : ∃ u, HeardTo s p u ∧
    exec .receiveCadence s = .next
      ((((u.withCadence { s.cadence with lastQualifying := some s.freeRun, selfLed := false, pendingBreak := none }).numbered n
        s.cadence.superFrame).joinAt n (d.toNat + 3 + s.ticksSince b) true).finishOffers .none) := by
  have hheard := s.takeNotice_heard p
  have hsame := hheard.frame.blocks .cadence (by decide)
  have hsince : (s.takeNotice p).ticksSince b = s.ticksSince b := by rw [State.ticksSince, hsame]; rfl
  have hrun : (s.takeNotice p).freeRun = s.freeRun := by rw [State.freeRun, hsame]; rfl
  refine ⟨_, hheard, ?_⟩
  rw [exec_receiveCadence_eq hincoming, State.hearCadence_listening (by rw [hsame]; exact hbreak) hpaired
    (by rw [hsame]; exact hjoin), hsame, hsince, hrun]

variable (hjoin : s.cadence.join = .joined) (he : e = (b.position : Int) - (d.toNat + 3))
  (hnear : e < 8192 → dd = e ∧ m = b.superFrame) (hfar : 8192 ≤ e → dd = e - 16384 ∧ m = b.superFrame + 1)
include hjoin he hnear hfar

/-- A CADENCE that does not qualify leaves no more than the discarded break (R13). -/
theorem exec_receiveCadence_refused (h : 32767 < (n - m).toNat) :
    ∃ u, HeardTo s p u ∧ exec .receiveCadence s = .next (u.dropBreak.finishOffers .none) := by
  obtain ⟨rfl, rfl, rfl⟩ := judged_items he hnear hfar
  have hheard := s.takeNotice_heard p
  have hsame := hheard.frame.blocks .cadence (by decide)
  have hrefused : qualifies n (ownNumber b (breakError b d)) = false := decide_eq_false (Nat.not_le.2 h)
  rw [exec_receiveCadence_eq hincoming, State.hearCadence_joined (by rw [hsame]; exact hbreak) hpaired (by rw [hsame]; exact hjoin),
    State.judgeCadence, hrefused]
  exact ⟨_, hheard, rfl⟩

/-- A CADENCE that qualifies is recorded, and takes its phase action and its number (R14 to R17). -/
theorem exec_receiveCadence_qualifies (h : (n - m).toNat ≤ 32767) : ∃ u v t, HeardTo s p u ∧
    v = (s.recorded u).phaseAction b n m d e dd ∧ exec .receiveCadence s = .next t ∧ NumberedTo v n m t := by
  obtain ⟨rfl, rfl, rfl⟩ := judged_items he hnear hfar
  have hheard := s.takeNotice_heard p
  have hsame := hheard.frame.blocks .cadence (by decide)
  have hrun : (s.takeNotice p).freeRun = s.freeRun := by rw [State.freeRun, hsame]; rfl
  have hqualifies : qualifies n (ownNumber b (breakError b d)) = true := decide_eq_true h
  refine ⟨_, _, _, hheard, rfl, ?_, State.numbered_finished _ _ _⟩
  rw [exec_receiveCadence_eq hincoming, State.hearCadence_joined (by rw [hsame]; exact hbreak) hpaired (by rw [hsame]; exact hjoin),
    State.judgeCadence, hqualifies, State.recorded, ← hrun, ← hsame]
  rfl

end Judged

end Sys2Proof.Machine
end

section
/-! CERTIFICATE. RECEIVE_CADENCE while LISTENING: the part is JOINED in frame 0 of the number heard (R6, R8, R9, R12, R17, R20, R82,
R132, R149). -/

namespace Sys2Proof.Machine

/-! ### Serials kept -/

theorem resetRecords_serials (first : Stamp) (serials : List Serial) (table : List Record) :
    (resetRecords first serials table).map Record.serial = table.map Record.serial := by
  rw [resetRecords, List.map_map]
  refine List.map_congr_left fun r _ => ?_
  dsimp only [Function.comp_apply]
  split <;> rfl

theorem limitFirstStamps_serials (now : Stamp) (table : List Record) :
    (limitFirstStamps now table).map Record.serial = table.map Record.serial := by
  rw [limitFirstStamps, List.map_map]
  refine List.map_congr_left fun r _ => ?_
  dsimp only [Function.comp_apply]
  split <;> rfl

theorem State.weighListed_serials (s : State) (ties : Ties) (a : Adjudication) :
    (s.weighListed ties a).sightings.map Record.serial = s.sightings.map Record.serial := by
  unfold State.weighListed
  dsimp only
  split
  · rfl
  · rw [State.giveVerdict, State.withSightings_sightings, resetRecords_serials, State.withAdj_sightings]
    exact congrArg _ ((State.offerAll_frame _ _).blocks .sightings (by decide))

theorem State.dropReport_serials (s : State) (ties : Ties) (notice : Notice) :
    (s.dropReport ties notice).sightings.map Record.serial = s.sightings.map Record.serial := by
  unfold State.dropReport
  split
  · split
    · exact s.weighListed_serials _ _
    · rfl
  · exact congrArg _ ((s.startHold_frame _).blocks .sightings (by decide))
  · rfl

theorem State.takeReports_serials (ties : Ties) : ∀ (fuel : Nat) (s : State),
    (s.takeReports ties fuel).sightings.map Record.serial = s.sightings.map Record.serial
  | 0, _ => rfl
  | fuel + 1, s => by
    unfold State.takeReports
    split
    · rfl
    · exact (State.takeReports_serials ties fuel _).trans (State.dropReport_serials _ ties _)

/-- The reports that wait reset records, and neither make nor free one (R65). -/
theorem State.finishOffers_serials (s : State) (ties : Ties) :
    (s.finishOffers ties).sightings.map Record.serial = s.sightings.map Record.serial :=
  State.takeReports_serials ties _ s

/-! ### The joining -/

/-- The neighbour records `r` as a frame 0 of the part in `s` counts them (R118, R120, R121). -/
def State.counted (s : State) (r : Neighbours) : Neighbours := (s.withNeighbours r).countSilence

theorem State.countSilence_counted {s u : State} (h : u.startup = s.startup) : u.countSilence = s.counted u.neighbours := by
  rw [State.counted, State.countSilence_eq, State.countSilence_eq, State.position_congr h]
  rfl

/-- What `t` is when the part has joined in `u` with the number `n` at offset `off`. -/
structure JoinsTo (s : State) (n : BitVec 16) (off : Nat) (u t : State) : Prop where
  startup : t.startup = { s.startup with state := .joined }
  cadence : t.cadence = { s.cadence with
    join := .joined
    frameIdx := 0
    superFrame := n
    offset := off
    startOffset := off
    adoptedFrame := true
    skips := []
    slotKey := BitVec.ofNat 4 (9 * n.toNat)
    lastQualifying := some s.freeRun
    pendingBreak := none
    mark := .absent
    markFrame := n
    selfLed := false
    frameOut := true
    slotsEnded := 0
    coilChecked := false }
  field : t.field = { s.field.beginFrame off with
    request := if s.startup.keyStarted = true ∧ s.startup.key = .service then none else some .run }
  neighbours : t.neighbours = s.counted u.neighbours
  lane : t.lane = (s.lane.restamp ⟨n, 0⟩).frameStart ⟨n, 0⟩
  rx : t.line.rx = u.line.rx
  line : u.line.dropped = [] → 1 ≤ s.position →
    t.line = { u.line with queue := if n = s.cadence.superFrame then u.line.queue else u.queueWithdrawn }
  emptied : n ≠ s.cadence.superFrame → t.sightings = [] ∧ t.adj.list = [] ∧ t.adj.claims = []
  closed : u.adj.list = [] → t.adj.list = []
  serials : n = s.cadence.superFrame → t.sightings.map Record.serial = s.sightings.map Record.serial

/-- The stamp taken at a change of number gives way to that of the frame 0 begun. -/
theorem LaneMonitor.restamp_restamp (l : LaneMonitor) (a b : Stamp) : (l.restamp a).restamp b = l.restamp b := by
  by_cases h : l.passage.inProgress = true <;> simp [LaneMonitor.restamp, h]

section Join

variable (s : State) (n : BitVec 16) (off : Nat) (adopted : Bool)

theorem State.joinAt_adj : (s.joinAt n off adopted).adj =
    { s.adj with list := s.adj.list.map Adjudication.countDown, claims := countClaims s.adj.claims } := by
  obtain ⟨x, hx, -, hevent⟩ := s.joinAt_event n off adopted
  rw [hevent.blocks .adj (by decide), State.frameStartEvent_adj, hx.blocks .adj (by decide)]

theorem State.joinAt_sightings : (s.joinAt n off adopted).sightings = limitFirstStamps ⟨n, 0⟩ s.sightings := by
  obtain ⟨x, hx, -, hevent⟩ := s.joinAt_event n off adopted
  rw [hevent.blocks .sightings (by decide), State.frameStartEvent_sightings, hx.blocks .sightings (by decide)]

theorem State.joinAt_neighbours : (s.joinAt n off adopted).neighbours = s.countSilence := by
  obtain ⟨x, hx, hposition, hevent⟩ := s.joinAt_event n off adopted
  rw [hevent.blocks .neighbours (by decide), State.frameStartEvent_neighbours, if_pos rfl, State.countSilence_eq,
    State.countSilence_eq, hposition, hx.blocks .neighbours (by decide)]

theorem State.joinAt_line_queue : s.line.sameButQueue (s.joinAt n off adopted).line := by
  obtain ⟨x, hx, -, hevent⟩ := s.joinAt_event n off adopted
  rw [hevent.blocks .line (by decide), ← hx.blocks .line (by decide)]
  exact x.frameStartEvent_line_queue _ _ _ _ _

variable {s} in
/-- From position 1 on a joining offers no STATUS (R114). -/
theorem State.joinAt_line (h : 1 ≤ s.position) : (s.joinAt n off adopted).line = s.line := by
  obtain ⟨x, hx, hposition, hevent⟩ := s.joinAt_event n off adopted
  rw [hevent.blocks .line (by decide), State.frameStartEvent_zero_line (by rwa [hposition]), hx.blocks .line (by decide)]

/-- With no adjudication in the list no report of a joining reaches a block but the line. -/
theorem State.joinAt_closed (h : s.adj.list = []) :
    SameBut (s.joinAt n off adopted) [.line] ((s.joinAt n off adopted).finishOffers .none) :=
  State.finishOffers_closed (by rw [State.joinAt_adj, h]; rfl) .none

end Join

theorem State.numbered_joins {s u : State} {p : Nat} (hu : HeardTo s p u) (n : BitVec 16) (off : Nat) : JoinsTo s n off u
    ((((u.withCadence { s.cadence with lastQualifying := some s.freeRun, selfLed := false, pendingBreak := none }).numbered n
      s.cadence.superFrame).joinAt n off true).finishOffers .none) := by
  generalize hw : u.withCadence { s.cadence with lastQualifying := some s.freeRun, selfLed := false, pendingBreak := none } = w
  generalize hv : w.numbered n s.cadence.superFrame = v
  have hsw : SameBut s [.cadence, .neighbours, .line, .adj] w := hw ▸ hu.frame.then (u.withCadence_frame _) (by simp) (by simp)
  have hwv : SameBut w [.line, .adj, .sightings, .lane] v := hv ▸ w.numbered_frame _ _
  have hreports := (v.joinAt n off true).finishOffers_frame .none
  have hstartup : v.startup = s.startup := (hwv.blocks .startup (by decide)).trans (hsw.blocks .startup (by decide))
  have hline : v.line = { u.line with queue := if n = s.cadence.superFrame then u.line.queue else u.queueWithdrawn } := by
    rw [← hv, State.numbered_line, ← hw]
    rfl
  refine ⟨?_, ?_, ?_, ?_, ?_, ?_, fun hquiet hpos => ?_, fun hn => ?_, fun hlist => ?_, fun hn => ?_⟩
  · rw [hreports.blocks .startup (by decide), State.joinAt_startup, hstartup]
  · rw [hreports.blocks .cadence (by decide), State.joinAt_cadence, hwv.blocks .cadence (by decide), ← hw]
    rfl
  · rw [hreports.blocks .field (by decide), State.joinAt_field, hstartup, hwv.blocks .field (by decide),
      hsw.blocks .field (by decide)]
  · rw [hreports.blocks .neighbours (by decide), State.joinAt_neighbours, State.countSilence_counted hstartup,
      hwv.blocks .neighbours (by decide), ← hw]
    rfl
  · rw [hreports.blocks .lane (by decide), State.joinAt_lane, ← hv, State.numbered]
    split
    · rw [hsw.blocks .lane (by decide)]
    · rw [w.numberChanged_eq, State.withLane_lane, LaneMonitor.restamp_restamp, hsw.blocks .lane (by decide)]
  · have hqueue := (v.joinAt_line_queue n off true).trans ((v.joinAt n off true).finishOffers_line .none)
    rw [hqueue, hline]
  · have hsame := State.joinAt_line n off true (s := v) (by rwa [State.position_congr hstartup])
    rw [State.finishOffers_none .none (by rw [hsame, hline]; exact hquiet), hsame, hline]
  · have hempty := w.numbered_changed hn
    rw [hv] at hempty
    have hreported := v.joinAt_closed n off true (by rw [hempty]; rfl)
    rw [hreported.blocks .sightings (by decide), hreported.blocks .adj (by decide), State.joinAt_adj, State.joinAt_sightings, hempty]
    exact ⟨rfl, rfl, rfl⟩
  · have hnone : v.adj.list = [] := by
      rw [← hv]
      exact w.numbered_closed (by rw [← hw]; exact hlist)
    rw [(v.joinAt_closed n off true hnone).blocks .adj (by decide), State.joinAt_adj, hnone]
    rfl
  · rw [State.finishOffers_serials, State.joinAt_sightings, limitFirstStamps_serials, ← hv, w.numbered_same hn,
      hsw.blocks .sightings (by decide)]

/-- Settles O46: the number is taken, and the joining begins its frame 0 at the place the break gives. -/
theorem cadenceAdoptedWhileListening : Obligations.CadenceAdoptedWhileListening := by
  unfold Obligations.CadenceAdoptedWhileListening
  intro s p n d f g b hincoming hjoin hstate hbreak hpaired hrunning hrequest
  obtain ⟨u, hu, hexec⟩ := exec_receiveCadence_listening hincoming hbreak hpaired hjoin
  obtain ⟨t, ht, hframe⟩ := moves_mayChange .receiveCadence s
  have htaken : s.field.taken = false := by rw [FieldDriver.taken, hrequest, hrunning]
  have hjoins := State.numbered_joins hu n (d.toNat + 3 + s.ticksSince b)
  rw [← Host.Outcome.next.inj (ht.symm.trans hexec)] at hjoins
  refine ⟨t, ht, hframe, hjoins.startup, ?_, hjoins.cadence, ?_, ?_, ?_, fun hprogress => ?_, hjoins.emptied, hjoins.serials,
    fun hquiet hposition => ⟨fun hn => ?_, fun hn hp => ?_⟩⟩
  · rw [hjoins.rx, hu.line]
  · rw [hjoins.field]
    exact htaken
  · rw [hjoins.field, FieldDriver.beginFrame, htaken]
    rfl
  · rw [hjoins.field]
  · rw [hjoins.lane]
    exact LaneMonitor.joined_startStamp hprogress _
  · rw [hjoins.line (by rw [hu.line]; exact hquiet) hposition, if_neg hn, hu.withdrawn, hu.line]
  · rw [hjoins.line (by rw [hu.line]; exact hquiet) hposition, if_pos hn, hu.line, if_neg (fun hnew => hp hnew.1)]

end Sys2Proof.Machine
end

section
/-! CERTIFICATE. RECEIVE_CADENCE while JOINED: judged, and adopted with the phase kept (R12, R13, R14, R17, R132, R149). -/

namespace Sys2Proof.Machine

section Other

variable {s t : State} {p : Nat} (h : HeardTo s p t) (hp : p ≠ s.position)
include h hp

/-- Heard from another station, a notice reaches no adjudication and withdraws nothing. -/
theorem HeardTo.other_adj : t.adj = s.adj := h.adj.trans (if_neg fun hnew => hp hnew.1)

theorem HeardTo.other_line : t.line = { s.line with rx := .hunting } := by
  rw [h.line, if_neg fun hnew => hp hnew.1]

theorem HeardTo.other_neighbours : t.neighbours = s.hearing p := h.neighbours.trans (if_neg hp)

theorem HeardTo.other_frame : SameBut s [.neighbours, .line] t := by
  refine ⟨h.frame.pending, fun b hb => ?_⟩
  by_cases hadj : b = .adj
  · obtain rfl := hadj
    exact h.other_adj hp
  · exact h.frame.blocks b (by simp at hb ⊢; tauto)

end Other

/-! ### The cadence unit adopted -/

section Adopted

variable (s u : State) (n m : BitVec 16)

/-- The cadence unit with its phase kept (R14, R17). -/
def State.keptCadence : Cadence := { s.cadence with
  pendingBreak := none
  lastQualifying := some s.freeRun
  selfLed := false
  mark := if s.cadence.mark = .pending then .absent else s.cadence.mark
  superFrame := if n = m then s.cadence.superFrame else n }

/-- The cadence unit moved forward by `k` ticks (R15, R17). -/
def State.movedCadence (k : Nat) : Cadence := { s.cadence with
  pendingBreak := none
  lastQualifying := some s.freeRun
  selfLed := false
  offset := s.cadence.offset + k
  skips := s.cadence.skips ++ [(s.cadence.offset, k)]
  adoptedFrame := true
  mark := if s.cadence.mark = .pending then .absent else s.cadence.mark
  superFrame := if n = m then s.cadence.superFrame else n }

variable (b : PendingBreak) (d : Byte) {e dd : Int}

theorem State.recorded_kept (hlow : 0 ≤ dd) (hhigh : dd ≤ 512) :
    (s.recorded u).phaseAction b n m d e dd = u.withCadence (s.keptCadence n m) :=
  (s.recorded u).phaseAction_kept b n m d hlow hhigh

theorem State.recorded_moved (hlow : -512 ≤ dd) (hhigh : dd < 0) (hframe : e < 0 ∨ s.cadence.frameIdx = 0) {k : Nat}
    (hk : k = if e < 0 then (-dd).toNat else d.toNat + 3 + s.ticksSince b - s.cadence.offset) :
    (s.recorded u).phaseAction b n m d e dd = u.withCadence (s.movedCadence n m k) :=
  (s.recorded u).phaseAction_moved b n m d hlow hhigh hframe hk

end Adopted

/-- A passage in progress takes the stamp, and any other keeps the lane as it is (R17, R82). -/
theorem LaneMonitor.restamp_progress {l : LaneMonitor} (h : l.passage.inProgress = true) (st : Stamp) :
    l.restamp st = { l with startStamp := some st } := if_pos h

theorem LaneMonitor.restamp_still {l : LaneMonitor} (h : l.passage.inProgress = false) (st : Stamp) : l.restamp st = l :=
  if_neg (by simp [h])

theorem NumberedTo.stamp {v t : State} {n m : BitVec 16} (h : NumberedTo v n m t) : t.stamp = v.stamp := by
  rw [State.stamp, h.frame.blocks .cadence (by decide)]
  rfl

/-- Settles O47: the CADENCE is refused, or its number is taken where the part stands. -/
theorem cadenceJudged : Obligations.CadenceJudged := by
  unfold Obligations.CadenceJudged
  intro s p n m d f g b e dd hincoming hp hjoin hbreak hpaired hquiet he hnear hfar
  by_cases hrefused : 32767 < (n - m).toNat
  · obtain ⟨u, hu, hexec⟩ := exec_receiveCadence_refused hincoming hbreak hpaired hjoin he hnear hfar hrefused
    rw [State.finishOffers_none .none (by rw [State.dropBreak, State.withCadence_line, hu.line]; exact hquiet)] at hexec
    refine ⟨_, hexec, fun _ => ⟨(hu.other_frame hp).then u.dropBreak_frame (by simp) (by simp), ?_, hu.other_line hp⟩,
      fun h => absurd hrefused (Nat.not_lt.2 h)⟩
    rw [State.dropBreak, State.withCadence_cadence, hu.frame.blocks .cadence (by decide)]
  · obtain ⟨u, v, t, hu, hv, hexec, ht⟩ :=
      exec_receiveCadence_qualifies hincoming hbreak hpaired hjoin he hnear hfar (Nat.not_lt.1 hrefused)
    refine ⟨t, hexec, fun h => absurd h hrefused, fun _ hlow hhigh => ?_⟩
    rw [s.recorded_kept u n m b d hlow hhigh] at hv
    have hsv : SameBut s [.cadence, .line, .neighbours] v :=
      hv ▸ (hu.other_frame hp).then (u.withCadence_frame _) (by simp) (by simp)
    have hline : v.line = { s.line with rx := .hunting } := by
      rw [hv]
      exact hu.other_line hp
    have hdropped : v.line.dropped = [] := by rw [hline]; exact hquiet
    have hlane : v.lane = s.lane := hsv.blocks .lane (by decide)
    refine ⟨hsv.then ht.frame (by simp) (by simp), ?_, fun hn => ?_, fun hn => ⟨(ht.emptied hn).1, ?_, ?_, fun hprogress => ?_,
      fun hprogress => ?_⟩⟩
    · rw [ht.frame.blocks .cadence (by decide), hv]
      rfl
    · rw [ht.quiet hdropped, v.numbered_same hn]
      exact ⟨hsv, hline⟩
    · rw [(ht.emptied hn).2, hsv.blocks .adj (by decide)]
    · have hwithdrawn : v.queueWithdrawn = u.queueWithdrawn := by rw [hv]; rfl
      rw [ht.line hdropped, if_neg hn, hwithdrawn, hu.withdrawn, hline]
    · rw [ht.lane, if_neg hn, hlane, LaneMonitor.restamp_progress hprogress, ht.stamp]
    · rw [ht.lane, if_neg hn, hlane, LaneMonitor.restamp_still hprogress]

end Sys2Proof.Machine
end

section
/-! CERTIFICATE. RECEIVE_CADENCE while JOINED: the forward move and the new frame 0 (R6, R11, R13, R15, R16, R17, R21, R22, R132, R149). -/

namespace Sys2Proof.Machine

/-- The cadence unit in the new frame 0 (R2, R6, R8, R15, R16). -/
def State.begunCadence (s : State) (n : BitVec 16) (place : Nat) : Cadence := { s.cadence with
  join := .joined
  frameIdx := 0
  superFrame := n
  offset := place
  startOffset := place
  adoptedFrame := true
  skips := []
  slotKey := BitVec.ofNat 4 (9 * n.toNat)
  lastQualifying := some s.freeRun
  pendingBreak := none
  mark := .absent
  markFrame := n
  selfLed := false
  frameOut := true
  slotsEnded := 0
  coilChecked := false }

/-- What a frame start makes of the field driver goes by the state taken (R21, R22). -/
theorem FieldDriver.beginFrame_congr {f g : FieldDriver} (h : g.taken = f.taken) (off : Nat) : g.beginFrame off = f.beginFrame off := by
  rw [FieldDriver.beginFrame, FieldDriver.beginFrame, h]

/-- The field is driven in the new frame 0 when it runs, up to the end of the window (R22). -/
theorem FieldDriver.beginFrame_drive (f : FieldDriver) (off : Nat) :
    (f.beginFrame off).drive = true ↔ (f.beginFrame off).running = true ∧ off < 320 := by
  simp [FieldDriver.beginFrame]

/-- A phase action leaves the record of the CADENCE, the join state and the count (R13). -/
theorem State.phaseAction_recorded (s : State) (b : PendingBreak) (n m : BitVec 16) (d : Byte) (e dd : Int) :
    (s.phaseAction b n m d e dd).cadence.lastQualifying = s.cadence.lastQualifying ∧
      (s.phaseAction b n m d e dd).cadence.pendingBreak = s.cadence.pendingBreak ∧
      (s.phaseAction b n m d e dd).cadence.selfLed = s.cadence.selfLed ∧
      (s.phaseAction b n m d e dd).cadence.join = s.cadence.join ∧
      (s.phaseAction b n m d e dd).cadence.clock = s.cadence.clock := by
  unfold State.phaseAction
  dsimp only
  split_ifs <;> simp [Cadence.renumber_eq, Cadence.abandonMark, Cadence.moveForward, Cadence.beginFrame]

section Adopted

variable {s u v t : State} {p : Nat} {b : PendingBreak} {n m : BitVec 16} {d : Byte} {e dd : Int} (hu : HeardTo s p u)
include hu

/-- The new frame 0, block by block. -/
theorem State.recorded_begun {place : Nat} (hjoin : s.cadence.join = .joined) (hplace : place = d.toNat + 3 + s.ticksSince b)
    (hbegun : (-512 ≤ dd ∧ dd < 0 ∧ 0 ≤ e ∧ s.cadence.frameIdx ≠ 0) ∨ dd < -512 ∨ 512 < dd)
    (hv : v = (s.recorded u).phaseAction b n m d e dd) : v.cadence = s.begunCadence n place ∧
      v.field = s.field.beginFrame place ∧ v.neighbours = s.counted u.neighbours := by
  obtain ⟨x, hx, htaken, hact⟩ := (s.recorded u).phaseAction_begun b n m d hbegun
  have hsince : d.toNat + 3 + (s.recorded u).ticksSince b = place := hplace.symm
  have hfield : u.field = s.field := hu.frame.blocks .field (by decide)
  have hstartup : x.startup = s.startup := (hx.blocks .startup (by decide)).trans (hu.frame.blocks .startup (by decide))
  rw [hsince] at hact
  rw [hv, hact, State.frameStartEvent_cadence, State.frameStartEvent_field, State.frameStartEvent_neighbours, if_pos rfl,
    FieldDriver.beginFrame_congr htaken, State.countSilence_counted hstartup, hx.blocks .cadence (by decide),
    hx.blocks .neighbours (by decide)]
  refine ⟨?_, congrArg (fun f => f.beginFrame place) hfield, rfl⟩
  rw [State.begunCadence, ← hjoin]
  rfl

variable (hv : v = (s.recorded u).phaseAction b n m d e dd) (ht : NumberedTo v n m t)
include hv ht

theorem State.recorded_frame : SameBut s atFrameStart t := by
  have hacted := (s.recorded u).phaseAction_acted b n m d e dd
  rw [← hv] at hacted
  have hrecorded : SameBut s atFrameStart (s.recorded u) := hu.frame.then (u.withCadence_frame _) (by decide) (by decide)
  exact hrecorded.then (hacted.frame.then ht.frame (ds := atFrameStart) (by decide) (by decide)) (by simp) (by simp)

/-- From position 1 on, the queue holds what a change of number leaves of it. -/
theorem State.recorded_line (hquiet : s.line.dropped = []) (hposition : 1 ≤ s.position) :
    t.line = { u.line with queue := if n = m then u.line.queue else s.queueWithdrawn } := by
  have hacted := (s.recorded u).phaseAction_acted b n m d e dd
  rw [← hv] at hacted
  have hstartup : (s.recorded u).startup = s.startup := hu.frame.blocks .startup (by decide)
  have hline : v.line = u.line := hacted.line (by rwa [State.position_congr hstartup])
  have hwithdrawn : v.queueWithdrawn = u.queueWithdrawn := State.queueWithdrawn_congr (by rw [hline]) hacted.ids
  rw [ht.line (by rw [hline, hu.line]; exact hquiet), hline, hwithdrawn, hu.withdrawn]

/-- Adopted with another number, the passage in progress takes the stamp where the part stands then (R17). -/
theorem State.recorded_lane (hn : n ≠ m) (hprogress : s.lane.passage.inProgress = true) : t.lane.startStamp = some t.stamp := by
  have hacted := (s.recorded u).phaseAction_acted b n m d e dd
  rw [← hv] at hacted
  have hpassage : v.lane.passage = s.lane.passage := hacted.passage.trans (congrArg _ (hu.frame.blocks .lane (by decide)))
  rw [ht.lane, if_neg hn, LaneMonitor.restamp_progress (by rw [hpassage]; exact hprogress), ht.stamp]

end Adopted

/-- A pending mark is abandoned (R11). -/
theorem abandoned_ne_pending (k : Mark) : (if k = .pending then .absent else k) ≠ Mark.pending := by
  split
  · simp
  · assumption

/-- Settles O48: the move within the frame in progress or the new frame 0, and then the number. -/
theorem cadenceMovesPhase : Obligations.CadenceMovesPhase := by
  unfold Obligations.CadenceMovesPhase
  intro s p n m d f g b e dd place hincoming hp hjoin _ hbreak hpaired he hnear hfar hqualifies hplace
  obtain ⟨u, v, t, hu, hv, hexec, ht⟩ := exec_receiveCadence_qualifies hincoming hbreak hpaired hjoin he hnear hfar hqualifies
  have hcadence : t.cadence = v.cadence := ht.frame.blocks .cadence (by decide)
  have hfield : t.field = v.field := ht.frame.blocks .field (by decide)
  have hrecorded := (s.recorded u).phaseAction_recorded b n m d e dd
  obtain ⟨hlast, hdropped, hled, hjoined, hclock⟩ := hrecorded
  rw [← hv, ← hcadence] at hlast hdropped hled hjoined hclock
  have hmoved : ∀ k, v = u.withCadence (s.movedCadence n m k) → t.cadence = s.movedCadence n m k ∧ t.field = s.field := fun k hk => by
    rw [hcadence, hfield, hk]
    exact ⟨rfl, hu.frame.blocks .field (by decide)⟩
  refine ⟨t, hexec, State.recorded_frame hu hv ht, hlast, hdropped, hled,
    hjoined.trans hjoin, hclock, fun hlow hhigh hcarried => ?_, fun hlow hhigh hsince hzero => ?_, fun hbegun => ?_, fun hn => ?_,
    fun hquiet hposition => ?_⟩
  · rw [s.recorded_moved u n m b d hlow hhigh (.inl hcarried) (if_pos hcarried).symm] at hv
    obtain ⟨hunit, hstill⟩ := hmoved _ hv
    rw [hunit]
    exact ⟨rfl, rfl, rfl, rfl, abandoned_ne_pending _, rfl, hstill⟩
  · rw [s.recorded_moved u n m b d hlow hhigh (.inr hzero) (if_neg (Int.not_lt.2 hsince)).symm] at hv
    obtain ⟨hunit, hstill⟩ := hmoved _ hv
    have hmax : s.cadence.offset + (place - s.cadence.offset) = max s.cadence.offset place := by omega
    have htick : d.toNat + 3 + s.ticksSince b = place := hplace.symm
    rw [htick] at hunit
    rw [hunit]
    exact ⟨hmax, hzero, rfl, rfl, rfl, abandoned_ne_pending _, rfl, hstill⟩
  · obtain ⟨hunit, hdriver, -⟩ := State.recorded_begun hu hjoin hplace hbegun hv
    rw [hcadence, hfield, hunit, hdriver]
    exact ⟨rfl, rfl, rfl, rfl, rfl, rfl, rfl, rfl, rfl, rfl, s.field.beginFrame_drive place⟩
  · obtain ⟨hsightings, hadj⟩ := ht.emptied hn
    rw [hadj]
    exact ⟨hsightings, rfl, rfl⟩
  · rw [State.recorded_line hu hv ht hquiet hposition, hu.other_line hp]

end Sys2Proof.Machine
end

section
/-! CERTIFICATE. A notice of any kind from another station: the neighbour records and the break paired with it (R12, R104, R106, R116, R117,
R118, R120, R121). -/

namespace Sys2Proof.Machine

/-! ### The notice taken -/

/-- A notice of another kind than CADENCE is heard in the state without the break paired with it (R12). -/
theorem State.takeOther_heard (s : State) (p : Nat) : HeardTo
    (s.withCadence { s.cadence with pendingBreak := s.cadence.pendingBreak.filter (fun b => !b.paired) }) p (s.takeOther p) :=
  State.takeNotice_heard _ p

theorem State.takeOther_cadence (s : State) (p : Nat) : (s.takeOther p).cadence =
    { s.cadence with pendingBreak := s.cadence.pendingBreak.filter (fun b => !b.paired) } :=
  (s.takeOther_heard p).frame.blocks .cadence (by decide)

theorem State.takeOther_rx (s : State) (p : Nat) : (s.takeOther p).line.rx = .hunting := by rw [(s.takeOther_heard p).line]

theorem State.takeOther_neighbours {s : State} {p : Nat} (hp : p ≠ s.position) : (s.takeOther p).neighbours = s.hearing p :=
  (s.takeOther_heard p).other_neighbours hp

theorem State.takeOther_position (s : State) (p : Nat) : (s.takeOther p).position = s.position :=
  State.position_congr ((s.takeOther_frame p).blocks .startup (by decide))

/-! ### What is reported -/

/-- What a notice of position `p` reports of its lane and latch (R117). -/
def WestRecord.reported (r : WestRecord) (p : Nat) : Notice → WestRecord
  | .status _ f k a => { r with laneBusy := some f.laneBusy, latchClass := k, latchAcknowledged := a }
  | .alarm lane k _ a => if lane.toNat = p then { r with latchClass := k, latchAcknowledged := a } else r
  | _ => r

/-- What a notice reports of its sender's west face (R117). -/
def EastRecord.reported (r : EastRecord) : Notice → EastRecord
  | .status _ f _ _ => { r with westFault := some f.westFault }
  | _ => r

/-- The neighbour table after a notice of another station and what it reports. -/
def State.reporting (s : State) (p : Nat) (notice : Notice) : Neighbours := { s.hearing p with
  west := if 2 ≤ s.position ∧ p + 1 = s.position then s.neighbours.west.heard.reported p notice else s.neighbours.west
  east := if s.position ≤ 8 ∧ p = s.position + 1 then s.neighbours.east.heard.reported notice else s.neighbours.east }

section Reported

variable {s : State} {p : Nat} (hp : p ≠ s.position)
include hp

theorem State.takeStatus_reporting (f : StatusFlags) (k : AlarmClass) (a : Bool) (n : BitVec 16) :
    (s.takeOther p).takeStatus p f k a = (s.takeOther p).withNeighbours (s.reporting p (.status n f k a)) := by
  rw [State.takeStatus, State.takeOther_neighbours hp]
  simp only [State.fromWest_iff, State.fromEast_iff, State.takeOther_position, State.hearing, State.reporting]
  congr 2 <;> split <;> rfl

theorem State.takeAlarm_reporting (lane : Byte) (k : AlarmClass) (ch : LatchChange) (a : Bool) :
    (s.takeOther p).takeAlarm p lane k a = (s.takeOther p).withNeighbours (s.reporting p (.alarm lane k ch a)) := by
  have hstill : s.takeOther p = (s.takeOther p).withNeighbours (s.hearing p) := by
    rw [← State.takeOther_neighbours hp]
    rfl
  rw [State.takeAlarm, State.takeOther_neighbours hp]
  simp only [Bool.and_eq_true, beq_iff_eq, State.fromWest_iff, State.takeOther_position]
  by_cases hwest : 2 ≤ s.position ∧ p + 1 = s.position <;> by_cases hlane : lane.toNat = p
  · rw [if_pos ⟨hwest, hlane⟩, State.reporting, if_pos hwest, WestRecord.reported, if_pos hlane, State.hearing, if_pos hwest]
    rfl
  · rw [if_neg (fun h => hlane h.2), State.reporting, if_pos hwest, WestRecord.reported, if_neg hlane]
    rw [State.hearing, if_pos hwest] at hstill
    exact hstill
  all_goals
    rw [if_neg (fun h => hwest h.1), State.reporting, if_neg hwest]
    rw [State.hearing, if_neg hwest] at hstill
    exact hstill

theorem State.takeOther_reporting (i : Byte) (e : Option JournalBody) :
    s.takeOther p = (s.takeOther p).withNeighbours (s.reporting p (.journal i e)) := by
  have hstill : s.reporting p (.journal i e) = s.hearing p := rfl
  rw [hstill, ← State.takeOther_neighbours hp]
  rfl

/-- A STATUS, an ALARM and a JOURNAL reach the neighbour table only (R106, R117). -/
theorem exec_receive_reporting {notice : Notice} {c : Instr} (h : s.incoming = some (p, notice))
    (hc : (∃ n f k a, notice = .status n f k a ∧ c = .receiveStatus) ∨ (∃ lane k ch a, notice = .alarm lane k ch a ∧ c = .receiveAlarm) ∨
      (∃ i e, notice = .journal i e ∧ c = .receiveJournal)) :
    exec c s = .next ((s.takeOther p).withNeighbours (s.reporting p notice)) := by
  rcases hc with ⟨n, f, k, a, rfl, rfl⟩ | ⟨lane, k, ch, a, rfl, rfl⟩ | ⟨i, e, rfl, rfl⟩
  · change execReceiveStatus s = _
    simp only [execReceiveStatus, h, State.takeStatus_reporting hp f k a n]
  · change execReceiveAlarm s = _
    simp only [execReceiveAlarm, h, State.takeAlarm_reporting hp lane k ch a]
  · change execReceiveJournal s = _
    simp only [execReceiveJournal, h, ← State.takeOther_reporting hp i e]

end Reported

/-! ### The other kinds -/

/-- What a command leaves of a notice heard: the cadence unit, the neighbour table, and the line but for its queue. -/
structure LeavesHeard (u t : State) : Prop where
  cadence : t.cadence = u.cadence
  neighbours : t.neighbours = u.neighbours
  line : u.line.sameButQueue t.line

section Leaves

theorem LeavesHeard.refl (u : State) : LeavesHeard u u := ⟨rfl, rfl, rfl⟩

theorem LeavesHeard.trans {s t u : State} (h : LeavesHeard s t) (k : LeavesHeard t u) : LeavesHeard s u :=
  ⟨k.cadence.trans h.cadence, k.neighbours.trans h.neighbours, h.line.trans k.line⟩

theorem LeavesHeard.ite {u a b : State} {p : Prop} [Decidable p] (ha : LeavesHeard u a) (hb : LeavesHeard u b) :
    LeavesHeard u (if p then a else b) := by
  split <;> assumption

theorem LeavesHeard.of_frame {u t : State} {bs : List Block} (h : SameBut u bs t) (hc : .cadence ∉ bs) (hn : .neighbours ∉ bs)
    (hl : u.line.sameButQueue t.line) : LeavesHeard u t := ⟨h.blocks .cadence hc, h.blocks .neighbours hn, hl⟩

variable (s : State)

theorem State.finishOffers_leaves (ties : Ties) : LeavesHeard s (s.finishOffers ties) :=
  .of_frame (s.finishOffers_frame ties) (by decide) (by decide) (s.finishOffers_line ties)

theorem State.offerAll_leaves (ns : List Notice) : LeavesHeard s (s.offerAll ns) :=
  .of_frame (s.offerAll_frame ns) (by decide) (by decide) (State.offerAll_line ns s)

theorem State.changeLatch_leaves (l : Latch) (change : LatchChange) : LeavesHeard s (s.changeLatch l change) :=
  .of_frame (s.changeLatch_frame l change) (by decide) (by decide) (State.offerAll_line [_] (s.withAlarm _))

theorem State.answerJournal_leaves (index : Byte) : LeavesHeard s (s.answerJournal index) :=
  .of_frame (s.answerJournal_frame index) (by decide) (by decide) (State.offerAll_line [_] (s.withAlarm _))

theorem State.acknowledge_leaves : LeavesHeard s s.acknowledge := by
  refine .ite (.refl s) (LeavesHeard.trans (t := s.withAlarm { s.alarm with journal := markJournal s.alarm.journal }) ⟨rfl, rfl, rfl⟩ ?_)
  unfold State.acknowledgeSet
  split
  · exact State.changeLatch_leaves _ _ _
  · exact .ite (.refl _) (.ite (State.changeLatch_leaves _ _ _) (State.changeLatch_leaves _ _ _))

theorem State.takeEvidence_leaves (id : Byte) (part : BitVec 4) (final : Bool) (es : List EvidenceEntry) :
    LeavesHeard s (s.takeEvidence id part final es) := by
  refine .of_frame (s.takeEvidence_frame id part final es) (by decide) (by decide) ?_
  unfold State.takeEvidence
  split
  · case h_1 a _ =>
    dsimp only
    split
    · exact State.weighListed_line (s.withList _) _ _
    · rfl
  · rfl

/-- A notice that is neither a CADENCE nor reports to the neighbour table leaves what hearing it has made (R106). -/
theorem exec_receive_leaves {p : Nat} {notice : Notice} (h : s.incoming = some (p, notice))
    (hcadence : ∀ n d f g, notice ≠ .cadence n d f g) (hstatus : ∀ n f k a, notice ≠ .status n f k a)
    (halarm : ∀ lane k ch a, notice ≠ .alarm lane k ch a) :
    ∃ t, exec (receiveOf notice) s = .next t ∧ LeavesHeard (s.takeOther p) t := by
  cases notice with
  | cadence n d f g => exact absurd rfl (hcadence n d f g)
  | status n f k a => exact absurd rfl (hstatus n f k a)
  | alarm lane k ch a => exact absurd rfl (halarm lane k ch a)
  | call id lane a b =>
    refine ⟨_, congrArg Host.Outcome.next (by rw [h]), .ite ?_ (.refl _)⟩
    exact (State.offerAll_leaves _ _).trans (State.finishOffers_leaves _ _)
  | evidence id part final es =>
    refine ⟨_, congrArg Host.Outcome.next (by rw [h]), .ite ?_ (.refl _)⟩
    exact (State.takeEvidence_leaves _ _ _ _ _).trans (State.finishOffers_leaves _ _)
  | verdict id lane part final es => exact ⟨_, exec_receiveVerdict_eq h, ⟨rfl, rfl, rfl⟩⟩
  | settlement id lane part final es =>
    exact ⟨(s.takeOther p).withCarried (applySettlement (s.takeOther p).settings.grace es (s.takeOther p).carried),
      congrArg Host.Outcome.next (by rw [h]), ⟨rfl, rfl, rfl⟩⟩
  | ack lane =>
    refine ⟨_, congrArg Host.Outcome.next (by rw [h]), .ite ?_ (.refl _)⟩
    exact (State.acknowledge_leaves _).trans (State.finishOffers_leaves _ _)
  | journalCall target index =>
    refine ⟨_, congrArg Host.Outcome.next (by rw [h]), .ite ?_ (.refl _)⟩
    exact (State.answerJournal_leaves _ _).trans (State.finishOffers_leaves _ _)
  | journal i e => exact ⟨_, congrArg Host.Outcome.next (by rw [h]), .refl _⟩

end Leaves

/-! ### A CADENCE -/

/-- The neighbour table after a notice of position `p`, another station's or the own one (R117, R120, R121). -/
def State.heardFrom (s : State) (p : Nat) : Neighbours := if p = s.position then s.clashing else s.hearing p

/-- What `t` is when a CADENCE from position `p` has had no effect but on the break (R12, R13). -/
structure IgnoresTo (s : State) (p : Nat) (t : State) : Prop where
  frame : SameBut s [.cadence, .line, .neighbours, .adj, .sightings] t
  neighbours : t.neighbours = s.heardFrom p
  cadence : t.cadence = { s.cadence with pendingBreak := none }
  quiet : s.line.dropped = [] → SameBut s [.cadence, .line, .neighbours, .adj] t ∧
    t.adj = (if s.newClash p then { s.adj with list := [] } else s.adj) ∧
    t.line = { s.line with rx := .hunting, queue := if s.newClash p then s.queueWithdrawn else s.line.queue }

theorem HeardTo.ignores {s u : State} {p : Nat} (hu : HeardTo s p u) : IgnoresTo s p (u.dropBreak.finishOffers .none) := by
  have hreports := u.dropBreak.finishOffers_frame .none
  have hdropped : SameBut s [.cadence, .line, .neighbours, .adj] u.dropBreak := hu.frame.then u.dropBreak_frame (by decide) (by decide)
  refine ⟨hdropped.then hreports (by decide) (by decide), ?_, ?_, fun hquiet => ?_⟩
  · rw [hreports.blocks .neighbours (by decide)]
    exact hu.neighbours
  · rw [hreports.blocks .cadence (by decide), State.dropBreak, State.withCadence_cadence, hu.frame.blocks .cadence (by decide)]
  · have hline : u.dropBreak.line = u.line := rfl
    rw [State.finishOffers_none .none (by rw [hline, hu.line]; exact hquiet)]
    exact ⟨hdropped, hu.adj, hu.line⟩

section Adopted

variable {s u v t : State} {p : Nat} {n m : BitVec 16} (hu : HeardTo s p u) (ht : NumberedTo v n m t)
include hu ht

/-- Adopted where the part stands, or with a move in the frame in progress (R14, R15). -/
theorem NumberedTo.stands {c : Cadence} (hv : v = u.withCadence c) :
    t.neighbours = s.heardFrom p ∧ t.field = s.field ∧ t.cadence = c := by
  rw [ht.frame.blocks .neighbours (by decide), ht.frame.blocks .field (by decide), ht.frame.blocks .cadence (by decide), hv]
  exact ⟨hu.neighbours, hu.frame.blocks .field (by decide), rfl⟩

/-- Adopted with a new frame 0, which counts the silences (R15, R16, R118). -/
theorem NumberedTo.begins {b : PendingBreak} {d : Byte} {e dd : Int} (hjoin : s.cadence.join = .joined)
    (hbegun : (-512 ≤ dd ∧ dd < 0 ∧ 0 ≤ e ∧ s.cadence.frameIdx ≠ 0) ∨ dd < -512 ∨ 512 < dd)
    (hv : v = (s.recorded u).phaseAction b n m d e dd) : t.neighbours = s.counted (s.heardFrom p) ∧
      t.field = s.field.beginFrame (d.toNat + 3 + s.ticksSince b) ∧ t.cadence = s.begunCadence n (d.toNat + 3 + s.ticksSince b) := by
  obtain ⟨hcadence, hfield, hneighbours⟩ := State.recorded_begun hu hjoin rfl hbegun hv
  rw [ht.frame.blocks .neighbours (by decide), ht.frame.blocks .field (by decide), ht.frame.blocks .cadence (by decide), hneighbours,
    hu.neighbours]
  exact ⟨rfl, hfield, hcadence⟩

end Adopted

/-! ### The line -/

theorem State.adoptListening_eq (s : State) (b : PendingBreak) (n : BitVec 16) (d : Byte) : s.adoptListening b n d =
    ((s.withCadence { s.cadence with lastQualifying := some s.freeRun, selfLed := false, pendingBreak := none }).numbered n
      s.cadence.superFrame).joinAt n (d.toNat + 3 + s.ticksSince b) true := rfl

theorem State.judgeCadence_eq (s : State) (b : PendingBreak) (n : BitVec 16) (d : Byte) : s.judgeCadence b n d =
    if qualifies n (ownNumber b (breakError b d)) = true then
      ((s.withCadence { s.cadence with lastQualifying := some s.freeRun, selfLed := false }).phaseAction b n
        (ownNumber b (breakError b d)) d (breakError b d) (phaseOffset (breakError b d))).numbered n (ownNumber b (breakError b d))
    else s := rfl

section Line

variable (s : State) (b : PendingBreak) (n m : BitVec 16) (d : Byte)

theorem State.numbered_line_queue : s.line.sameButQueue (s.numbered n m).line := by
  rw [s.numbered_line]
  rfl

theorem State.adoptListening_line : s.line.sameButQueue (s.adoptListening b n d).line := by
  rw [State.adoptListening_eq]
  generalize hw : s.withCadence { s.cadence with lastQualifying := some s.freeRun, selfLed := false, pendingBreak := none } = w
  have hline : w.line = s.line := by rw [← hw]; rfl
  rw [← hline]
  exact (w.numbered_line_queue n _).trans (State.joinAt_line_queue _ _ _ _)

theorem State.judgeCadence_line : s.line.sameButQueue (s.judgeCadence b n d).line := by
  rw [State.judgeCadence_eq]
  generalize hw : s.withCadence { s.cadence with lastQualifying := some s.freeRun, selfLed := false } = w
  have hline : w.line = s.line := by rw [← hw]; rfl
  split
  · rw [← hline]
    exact (w.phaseAction_acted _ _ _ _ _ _).queue.trans (State.numbered_line_queue _ _ _)
  · rfl

/-- However a CADENCE is taken, the line keeps all but its queue. -/
theorem State.hearCadence_line : s.line.sameButQueue (s.hearCadence n d).line := by
  unfold State.hearCadence
  split
  · exact s.adoptListening_line _ n d
  · exact s.dropBreak.judgeCadence_line _ n d
  · rfl

end Line

theorem exec_receiveCadence_rx {s t : State} {p : Nat} {n : BitVec 16} {d : Byte} {f g : Bool}
    (hincoming : s.incoming = some (p, .cadence n d f g)) (hexec : exec .receiveCadence s = .next t) : t.line.rx = .hunting := by
  rw [exec_receiveCadence_eq hincoming] at hexec
  have hline := ((s.takeNotice p).hearCadence_line n d).trans (State.finishOffers_line _ .none)
  rw [Host.Outcome.next.inj hexec] at hline
  rw [hline, (s.takeNotice_heard p).line]

/-! ### The statement -/

/-- A STATUS, an ALARM or a JOURNAL of another station, clause by clause (R106, R117). -/
theorem reporting_cases (s : State) (p : Nat) (notice : Notice) :
    (¬(2 ≤ s.position ∧ p + 1 = s.position) → (s.reporting p notice).west = s.neighbours.west) ∧
    (¬(s.position ≤ 8 ∧ p = s.position + 1) → (s.reporting p notice).east = s.neighbours.east) ∧
    (2 ≤ s.position → p + 1 = s.position → (s.reporting p notice).west = s.neighbours.west.heard.reported p notice) ∧
    (s.position ≤ 8 → p = s.position + 1 → (s.reporting p notice).east = s.neighbours.east.heard.reported notice) :=
  ⟨fun h => if_neg h, fun h => if_neg h, fun h k => if_pos ⟨h, k⟩, fun h k => if_pos ⟨h, k⟩⟩

theorem WestRecord.reported_still (r : WestRecord) (p : Nat) (notice : Notice) :
    (r.reported p notice).presence = r.presence ∧ (r.reported p notice).silence = r.silence := by
  cases notice with
  | alarm lane k ch a =>
    unfold WestRecord.reported
    dsimp only
    split <;> exact ⟨rfl, rfl⟩
  | cadence | status | call | evidence | verdict | settlement | ack | journalCall | journal => exact ⟨rfl, rfl⟩

theorem EastRecord.reported_other (r : EastRecord) {notice : Notice} (h : ∀ n f k a, notice ≠ .status n f k a) :
    r.reported notice = r := by
  cases notice with
  | status n f k a => exact absurd rfl (h n f k a)
  | cadence | call | evidence | verdict | settlement | alarm | ack | journalCall | journal => rfl

/-- What a notice other than a CADENCE leaves, whatever its kind. -/
theorem exec_receive_heard {s : State} {p : Nat} {notice : Notice} (h : s.incoming = some (p, notice)) (hp : p ≠ s.position)
    (hcadence : ∀ n d f g, notice ≠ .cadence n d f g) : ∃ t, exec (receiveOf notice) s = .next t ∧ t.line.rx = .hunting ∧
      t.cadence = { s.cadence with pendingBreak := s.cadence.pendingBreak.filter (fun b => !b.paired) } ∧
      ((∀ n f k a, notice ≠ .status n f k a) → (∀ lane k ch a, notice ≠ .alarm lane k ch a) → t.neighbours = s.hearing p) := by
  by_cases hstatus : ∃ n f k a, notice = .status n f k a
  · obtain ⟨n, f, k, a, rfl⟩ := hstatus
    exact ⟨_, exec_receive_reporting hp h (.inl ⟨n, f, k, a, rfl, rfl⟩), s.takeOther_rx p, s.takeOther_cadence p,
      fun hother => absurd rfl (hother n f k a)⟩
  by_cases halarm : ∃ lane k ch a, notice = .alarm lane k ch a
  · obtain ⟨lane, k, ch, a, rfl⟩ := halarm
    exact ⟨_, exec_receive_reporting hp h (.inr (.inl ⟨lane, k, ch, a, rfl, rfl⟩)), s.takeOther_rx p, s.takeOther_cadence p,
      fun _ hother => absurd rfl (hother lane k ch a)⟩
  obtain ⟨t, hexec, hleaves⟩ := exec_receive_leaves s h hcadence (by simpa using hstatus) (by simpa using halarm)
  refine ⟨t, hexec, ?_, hleaves.cadence.trans (s.takeOther_cadence p), fun _ _ => hleaves.neighbours.trans (State.takeOther_neighbours hp)⟩
  rw [hleaves.line]
  exact s.takeOther_rx p

/-- Settles O49: what is heard goes by the sender, what is reported by the kind, and a frame 0 begun counts after it. -/
theorem neighboursHeard : Obligations.NeighboursHeard := by
  unfold Obligations.NeighboursHeard
  refine ⟨fun s p notice c hincoming hp hkind => ?reports, fun s p notice still begun hincoming hp hstill hbegun => ?heard⟩
  case reports =>
    obtain ⟨hfar, haway, hwest, heast⟩ := reporting_cases s p notice
    obtain ⟨hpresence, hsilence⟩ := s.neighbours.west.heard.reported_still p notice
    refine ⟨_, exec_receive_reporting hp hincoming hkind,
      (State.takeOther_other_frame hp).then (State.withNeighbours_frame _ _) (by decide) (by decide), State.takeOther_line hp,
      s.takeOther_cadence p, ⟨rfl, rfl, rfl, rfl⟩, hfar, haway, fun hposition hsender => ?_, fun hposition hsender => ?_⟩
    · rw [State.withNeighbours_neighbours, hwest hposition hsender]
      refine ⟨hpresence, hsilence, ?_, ?_, ?_, ?_⟩
      · rintro n f k a rfl
        rfl
      · rintro lane k ch a rfl hlane
        exact if_pos hlane
      · rintro lane k ch a rfl hlane
        exact if_neg hlane
      · rintro i e rfl
        rfl
    · rw [State.withNeighbours_neighbours, heast hposition hsender]
      refine ⟨?_, fun hother => EastRecord.reported_other _ hother⟩
      rintro n f k a rfl
      rfl
  case heard =>
    have hheard : s.heardFrom p = still := (if_neg hp).trans hstill.symm
    have hcounted : s.counted (s.heardFrom p) = begun := by
      rw [hheard, State.counted, State.countSilence_eq, hbegun, hstill]
      rfl
    obtain ⟨t, hexec, hframe⟩ := moves_mayChange (receiveOf notice) s
    by_cases hcadence : ∃ n d f g, notice = .cadence n d f g
    · obtain ⟨n, d, f, g, rfl⟩ := hcadence
      refine ⟨t, hexec, hframe, exec_receiveCadence_rx hincoming hexec, fun hother => absurd rfl (hother n d f g), ?_⟩
      rintro n d f g ⟨⟩
      refine ⟨fun hignored => ?_, fun b hbreak hpaired => ⟨fun hjoin => ?_, fun m e dd hjoin he hnear hfar => ⟨fun hstays => ?_,
        fun hqualifies hbegins => ?_⟩⟩⟩
      · obtain ⟨u, hu, hsame⟩ := exec_receiveCadence_ignored hincoming hignored
        obtain rfl := Host.Outcome.next.inj (hexec.symm.trans hsame)
        exact ⟨hu.ignores.neighbours.trans hheard, hu.ignores.cadence⟩
      · obtain ⟨u, hu, hsame⟩ := exec_receiveCadence_listening hincoming hbreak hpaired hjoin
        obtain rfl := Host.Outcome.next.inj (hexec.symm.trans hsame)
        rw [(State.numbered_joins hu n _).neighbours, hu.neighbours]
        exact hcounted
      · by_cases hrefused : 32767 < (n - m).toNat
        · obtain ⟨u, hu, hsame⟩ := exec_receiveCadence_refused hincoming hbreak hpaired hjoin he hnear hfar hrefused
          obtain rfl := Host.Outcome.next.inj (hexec.symm.trans hsame)
          exact hu.ignores.neighbours.trans hheard
        · obtain ⟨u, v, w, hu, hv, hsame, hw⟩ :=
            exec_receiveCadence_qualifies hincoming hbreak hpaired hjoin he hnear hfar (Nat.not_lt.1 hrefused)
          obtain rfl := Host.Outcome.next.inj (hexec.symm.trans hsame)
          rcases hstays.resolve_left hrefused with ⟨hlow, hhigh⟩ | ⟨hlow, hhigh, hzero⟩
          · exact (hw.stands hu (hv.trans (s.recorded_kept u n m b d hlow hhigh))).1.trans hheard
          · exact (hw.stands hu (hv.trans (s.recorded_moved u n m b d hlow hhigh hzero rfl))).1.trans hheard
      · obtain ⟨u, v, w, hu, hv, hsame, hw⟩ := exec_receiveCadence_qualifies hincoming hbreak hpaired hjoin he hnear hfar hqualifies
        obtain rfl := Host.Outcome.next.inj (hexec.symm.trans hsame)
        exact (hw.begins hu hjoin hbegins hv).1.trans hcounted
    · have hother : ∀ n d f g, notice ≠ .cadence n d f g := by simpa using hcadence
      obtain ⟨u, hsame, hrx, hunit, hneighbours⟩ := exec_receive_heard hincoming hp hother
      obtain rfl := Host.Outcome.next.inj (hexec.symm.trans hsame)
      exact ⟨t, hexec, hframe, hrx, fun _ => ⟨hunit, fun hstatus halarm => (hneighbours hstatus halarm).trans hstill.symm⟩,
        fun n d f g hn => absurd hn (hother n d f g)⟩

end Sys2Proof.Machine
end

section
/-! CERTIFICATE. A notice of any kind under the part's own position: the clash, what is abandoned and withdrawn with it, and the notice's
own effect (R13, R66, R105, R109, R121, R122, R132, R143, R149, R153, R162, R174). -/

namespace Sys2Proof.Machine

/-! ### The queue -/

theorem State.withdraws_eq (s : State) (notice : Notice) :
    s.withdraws notice = (isEvidence notice || ofCalls (s.adj.list.map Adjudication.callId) notice) := by
  cases notice <;> simp [State.withdraws, isEvidence, ofCalls, List.any_eq]

/-- A notice not yet withdrawn stays in the queue unless it goes with what is abandoned (R132, R149). -/
theorem State.mem_queueWithdrawn (s : State) {q : Queued} (hq : q.withdrawn = false) : q ∈ s.queueWithdrawn ↔ q ∈ s.line.queue ∧
    ¬(isEvidence q.notice = true ∨ ofCalls (s.adj.list.map Adjudication.callId) q.notice = true) := by
  rw [← Bool.or_eq_true, ← s.withdraws_eq, State.queueWithdrawn, List.mem_filterMap]
  constructor
  · rintro ⟨x, hx, hkept⟩
    split_ifs at hkept with hgoes
    · obtain rfl := Option.some.inj hkept
      exact absurd hq (by simp)
    · obtain rfl := Option.some.inj hkept
      exact ⟨hx, hgoes⟩
  · rintro ⟨hmem, hstays⟩
    exact ⟨q, hmem, if_neg hstays⟩

theorem State.queueWithdrawn_length (s : State) : s.queueWithdrawn.length ≤ s.line.queue.length := List.length_filterMap_le _ _

/-! ### Under the own position -/

section Own

variable (s : State)

theorem State.takeOther_own_neighbours : (s.takeOther s.position).neighbours = s.clashing :=
  (s.takeOther_heard s.position).neighbours.trans (if_pos rfl)

theorem State.takeOther_own_set (h : s.neighbours.clash = true) :
    (s.takeOther s.position).adj = s.adj ∧ (s.takeOther s.position).line = { s.line with rx := .hunting } := by
  have hheard := s.takeOther_heard s.position
  have hold : ¬(s.position = s.position ∧ s.neighbours.clash = false) := by simp [h]
  refine ⟨hheard.adj.trans (if_neg hold), ?_⟩
  rw [hheard.line]
  exact congrArg (fun q => { s.line with rx := .hunting, queue := q }) (if_neg hold)

theorem State.takeOther_own_new (h : s.neighbours.clash = false) : (s.takeOther s.position).adj = { s.adj with list := [] } ∧
    (s.takeOther s.position).line = { s.line with rx := .hunting, queue := s.queueWithdrawn } := by
  have hheard := s.takeOther_heard s.position
  have hnew : s.position = s.position ∧ s.neighbours.clash = false := ⟨rfl, h⟩
  refine ⟨hheard.adj.trans (if_pos hnew), ?_⟩
  rw [hheard.line]
  exact congrArg (fun q => { s.line with rx := .hunting, queue := q }) (if_pos hnew)

theorem State.HasRoom.takeOther_own {s : State} {n : Nat} (room : s.HasRoom n) : (s.takeOther s.position).HasRoom n := by
  have hfits := room.fits
  cases hclash : s.neighbours.clash with
  | true =>
    obtain ⟨-, hline⟩ := s.takeOther_own_set hclash
    exact ⟨by rw [hline]; exact room.awake, by rw [hline]; exact hfits, by rw [hline]; exact room.quiet⟩
  | false =>
    obtain ⟨-, hline⟩ := s.takeOther_own_new hclash
    have hlength := s.queueWithdrawn_length
    exact ⟨by rw [hline]; exact room.awake, by rw [hline]; show s.queueWithdrawn.length + n ≤ 12; omega, by rw [hline]; exact room.quiet⟩

theorem State.fromWest_own : (s.takeOther s.position).fromWest s.position = false := by
  rw [Bool.eq_false_iff, ne_eq, State.fromWest_iff, State.takeOther_position]
  omega

theorem State.fromEast_own : (s.takeOther s.position).fromEast s.position = false := by
  rw [Bool.eq_false_iff, ne_eq, State.fromEast_iff, State.takeOther_position]
  omega

/-- An ACK of the own position is from neither the partner nor the desk station (R162). -/
theorem State.takesAck_own (lane : Byte) : (s.takeOther s.position).takesAck s.position lane = false := by
  rw [Bool.eq_false_iff, ne_eq, State.takesAck_iff, State.takeOther_position]
  rintro ⟨howns, -, hsender⟩
  have hlane : 1 ≤ (s.takeOther s.position).position := by
    simp [State.ownsLane] at howns
    omega
  rw [State.takeOther_position] at hlane
  omega

end Own

/-! ### The kinds -/

section Kinds

variable {s : State} {notice : Notice} (h : s.incoming = some (s.position, notice))
include h

/-- A STATUS, CALL, EVIDENCE, ALARM, ACK or JOURNAL of the own position has no effect but the clash (R105, R117, R131, R133, R162). -/
theorem exec_receive_own_still {c : Instr}
    (hkind : (∃ n f k a, notice = .status n f k a ∧ c = .receiveStatus) ∨ (∃ i l a b, notice = .call i l a b ∧ c = .receiveCall) ∨
      (∃ i p f es, notice = .evidence i p f es ∧ c = .receiveEvidence) ∨ (∃ lane k ch a, notice = .alarm lane k ch a ∧ c = .receiveAlarm) ∨
      (∃ lane, notice = .ack lane ∧ c = .receiveAck) ∨ (∃ i e, notice = .journal i e ∧ c = .receiveJournal)) :
    exec c s = .next (s.takeOther s.position) := by
  rcases hkind with ⟨n, f, k, a, rfl, rfl⟩ | ⟨i, l, a, b, rfl, rfl⟩ | ⟨i, p, f, es, rfl, rfl⟩ | ⟨lane, k, ch, a, rfl, rfl⟩ |
    ⟨lane, rfl, rfl⟩ | ⟨i, e, rfl, rfl⟩
  · change execReceiveStatus s = _
    simp only [execReceiveStatus, h, State.takeStatus, s.fromWest_own, s.fromEast_own]
    rfl
  · have hclash : (s.takeOther s.position).answersCall s.position l = false := by
      simp [State.answersCall, s.takeOther_own_neighbours, State.clashing]
    change execReceiveCall s = _
    simp only [execReceiveCall, h, hclash]
    rfl
  · have hpartner : ¬s.position = (s.takeOther s.position).position + 1 := by
      rw [State.takeOther_position]
      omega
    change execReceiveEvidence s = _
    simp only [execReceiveEvidence, h, if_neg hpartner]
  · change execReceiveAlarm s = _
    simp only [execReceiveAlarm, h, State.takeAlarm, s.fromWest_own]
    rfl
  · change execReceiveAck s = _
    simp only [execReceiveAck, h, s.takesAck_own lane]
    rfl
  · change execReceiveJournal s = _
    simp only [execReceiveJournal, h]

end Kinds

section Own

variable (s : State)

theorem State.takeOther_own_nextCall : (s.takeOther s.position).adj.nextCall = s.adj.nextCall ∧
    (s.takeOther s.position).adj.claims = s.adj.claims := by
  cases hclash : s.neighbours.clash with
  | true =>
    rw [(s.takeOther_own_set hclash).1]
    exact ⟨rfl, rfl⟩
  | false =>
    rw [(s.takeOther_own_new hclash).1]
    exact ⟨rfl, rfl⟩

/-- The resets and claims of a VERDICT of the own position (R66, R143). -/
theorem State.takeVerdict_own (id lane : Byte) (es : List VerdictEntry) {t : State}
    (ht : t = (s.takeOther s.position).takeVerdict id lane es) : SameBut (s.takeOther s.position) [.sightings, .adj] t ∧
      t.adj.nextCall = s.adj.nextCall ∧ (s.neighbours.clash = false → t.adj.list = []) ∧
      t.sightings = resetRecords s.stamp.next (es.map VerdictEntry.serial) s.sightings ∧
      t.adj.claims = addClaims (es.map (fun e => ⟨e.serial, lane.toNat, e.share.toNat, id, 10⟩)) s.adj.claims := by
  obtain ⟨hnext, hclaims⟩ := s.takeOther_own_nextCall
  have hstamp : (s.takeOther s.position).stamp = s.stamp := by
    rw [State.stamp, s.takeOther_cadence]
    rfl
  have hsightings : (s.takeOther s.position).sightings = s.sightings := (s.takeOther_frame _).blocks .sightings (by decide)
  subst ht
  refine ⟨State.takeVerdict_frame _ _ _ _, hnext, fun hclash => ?_, ?_, ?_⟩
  · rw [State.takeVerdict, State.withAdj_adj, State.withSightings_adj, (s.takeOther_own_new hclash).1]
    rfl
  · rw [State.takeVerdict, State.withAdj_sightings, State.withSightings_sightings, hstamp, hsightings]
  · rw [State.takeVerdict, State.withAdj_adj, State.withSightings_adj, hclaims]
    rfl

/-- A JOURNAL CALL for the own position, under it, is answered as any (R174). -/
theorem State.answerJournal_own (room : s.HasRoom 1) (i : Byte) {j : Nat} (hj : j = if i = 255 then s.alarm.cursor else i.toNat) :
    ((s.takeOther s.position).answerJournal i).finishOffers .none = (s.takeOther s.position).alarmMoved
      { s.alarm with cursor := s.alarm.cursorAfter j } [.journal (BitVec.ofNat 8 j) ((s.alarm.journal[j]?).map JournalEntry.body)] := by
  have hread : s.alarm.indexRead i = j := hj.symm
  have halarm : (s.takeOther s.position).alarm = s.alarm := (s.takeOther_frame _).blocks .alarm (by decide)
  rw [State.answerJournal_room room.takeOther_own, halarm, hread]
  exact State.finishOffers_none .none room.takeOther_own.quiet

theorem AlarmUnit.cursorAfter_eq (a : AlarmUnit) (j : Nat) :
    a.cursorAfter j = if j < a.journal.length ∧ j ≠ 31 then j + 1 else 0 := by
  unfold AlarmUnit.cursorAfter
  by_cases hlast : j = 31 <;> simp [hlast]

end Own

/-- What `t` is when a notice of the own position has had the effect of its kind, after the clash. -/
structure OwnEffect (s : State) (notice : Notice) (c : Instr) (t : State) : Prop where
  still : c ∈ [Instr.receiveStatus, .receiveAlarm, .receiveJournal, .receiveEvidence, .receiveAck] → t = s.takeOther s.position
  call : c = .receiveCall → t = s.takeOther s.position
  verdict : ∀ i l p f es, notice = .verdict i l p f es → SameBut (s.takeOther s.position) [.sightings, .adj] t ∧
    t.adj.nextCall = s.adj.nextCall ∧ (s.neighbours.clash = false → t.adj.list = []) ∧
    t.sightings = resetRecords s.stamp.next (es.map VerdictEntry.serial) s.sightings ∧
    t.adj.claims = addClaims (es.map (fun e => ⟨e.serial, l.toNat, e.share.toNat, i, 10⟩)) s.adj.claims
  settlement : ∀ i l p f es, notice = .settlement i l p f es →
    SameBut (s.takeOther s.position) [.carried] t ∧ t.carried = es.foldl (applySettled s.settings.grace) s.carried
  journalCall : ∀ x i, notice = .journalCall x i → (x.toNat ≠ s.position → t = s.takeOther s.position) ∧
    (x.toNat = s.position → s.HasRoom 1 → ∀ j : Nat, j = (if i = 255 then s.alarm.cursor else i.toNat) →
      t = (s.takeOther s.position).alarmMoved { s.alarm with cursor := s.alarm.cursorAfter j }
        [.journal (BitVec.ofNat 8 j) ((s.alarm.journal[j]?).map JournalEntry.body)])

theorem exec_receiveSettlement_own {s : State} {i l : Byte} {p : BitVec 4} {f : Bool} {es : List SettledEntry}
    (h : s.incoming = some (s.position, .settlement i l p f es)) : exec .receiveSettlement s =
      .next ((s.takeOther s.position).withCarried (applySettlement s.settings.grace es s.carried)) := by
  have hsettings : (s.takeOther s.position).settings = s.settings := by
    rw [State.settings, (s.takeOther_frame _).blocks .startup (by decide)]
    rfl
  change execReceiveSettlement s = _
  simp only [execReceiveSettlement, h, hsettings]
  rw [(s.takeOther_frame _).blocks .carried (by decide)]

theorem exec_receiveJournalCall_own {s : State} {x i : Byte} (h : s.incoming = some (s.position, .journalCall x i)) :
    exec .receiveJournalCall s = .next (if x.toNat = s.position then
      ((s.takeOther s.position).answerJournal i).finishOffers .none else s.takeOther s.position) := by
  change execReceiveJournalCall s = _
  simp only [execReceiveJournalCall, h, State.takeOther_position]

theorem exec_receive_own {s : State} {notice : Notice} {c : Instr} (h : s.incoming = some (s.position, notice))
    (hkind : (∃ n f k a, notice = .status n f k a ∧ c = .receiveStatus) ∨ (∃ i l a b, notice = .call i l a b ∧ c = .receiveCall) ∨
      (∃ i p f es, notice = .evidence i p f es ∧ c = .receiveEvidence) ∨
      (∃ i l p f es, notice = .verdict i l p f es ∧ c = .receiveVerdict) ∨
      (∃ i l p f es, notice = .settlement i l p f es ∧ c = .receiveSettlement) ∨
      (∃ lane k ch a, notice = .alarm lane k ch a ∧ c = .receiveAlarm) ∨ (∃ lane, notice = .ack lane ∧ c = .receiveAck) ∨
      (∃ x i, notice = .journalCall x i ∧ c = .receiveJournalCall) ∨ (∃ i e, notice = .journal i e ∧ c = .receiveJournal)) :
    ∃ t, exec c s = .next t ∧ OwnEffect s notice c t := by
  have hquiet := fun hstill => exec_receive_own_still (c := c) h hstill
  rcases hkind with ⟨n, f, k, a, rfl, rfl⟩ | ⟨i, l, a, b, rfl, rfl⟩ | ⟨i, p, f, es, rfl, rfl⟩ | ⟨i, l, p, f, es, rfl, rfl⟩ |
    ⟨i, l, p, f, es, rfl, rfl⟩ | ⟨lane, k, ch, a, rfl, rfl⟩ | ⟨lane, rfl, rfl⟩ | ⟨x, i, rfl, rfl⟩ | ⟨i, e, rfl, rfl⟩
  · exact ⟨_, hquiet (.inl ⟨n, f, k, a, rfl, rfl⟩), fun _ => rfl, fun _ => rfl, nofun, nofun, nofun⟩
  · exact ⟨_, hquiet (.inr (.inl ⟨i, l, a, b, rfl, rfl⟩)), fun _ => rfl, fun _ => rfl, nofun, nofun, nofun⟩
  · exact ⟨_, hquiet (.inr (.inr (.inl ⟨i, p, f, es, rfl, rfl⟩))), fun _ => rfl, fun _ => rfl, nofun, nofun, nofun⟩
  · refine ⟨_, exec_receiveVerdict_eq h, by simp, nofun, ?_, nofun, nofun⟩
    rintro i l p f es ⟨⟩
    exact s.takeVerdict_own i l es rfl
  · refine ⟨_, exec_receiveSettlement_own h, by simp, nofun, nofun, ?_, nofun⟩
    rintro i l p f es ⟨⟩
    exact ⟨State.withCarried_frame _ _, rfl⟩
  · exact ⟨_, hquiet (.inr (.inr (.inr (.inl ⟨lane, k, ch, a, rfl, rfl⟩)))), fun _ => rfl, fun _ => rfl, nofun, nofun, nofun⟩
  · exact ⟨_, hquiet (.inr (.inr (.inr (.inr (.inl ⟨lane, rfl, rfl⟩))))), fun _ => rfl, fun _ => rfl, nofun, nofun, nofun⟩
  · refine ⟨_, exec_receiveJournalCall_own h, by simp, nofun, nofun, nofun, ?_⟩
    rintro x i ⟨⟩
    exact ⟨fun hother => if_neg hother, fun hown room j hj => (if_pos hown).trans (s.answerJournal_own room i hj)⟩
  · exact ⟨_, hquiet (.inr (.inr (.inr (.inr (.inr ⟨i, e, rfl, rfl⟩))))), fun _ => rfl, fun _ => rfl, nofun, nofun, nofun⟩

/-! ### A CADENCE -/

/-- With no adjudication in the list a CADENCE opens none. -/
theorem State.hearCadence_closed {s : State} (h : s.adj.list = []) (n : BitVec 16) (d : Byte) : (s.hearCadence n d).adj.list = [] := by
  unfold State.hearCadence
  split
  · rw [State.adoptListening_eq, State.joinAt_adj]
    exact List.map_eq_nil_iff.2 (State.numbered_closed _ h)
  · rw [State.judgeCadence_eq]
    split
    · exact State.numbered_closed _ ((State.phaseAction_acted (s.dropBreak.withCadence _) _ _ _ _ _ _).closed h)
    · exact h
  · exact h

section Cadence

variable {s t : State} {p : Nat} {n : BitVec 16} {d : Byte} {f g : Bool} (hincoming : s.incoming = some (p, .cadence n d f g))
  (hexec : exec .receiveCadence s = .next t)
include hincoming hexec

/-- A CADENCE that sets the clash newly leaves no adjudication. -/
theorem exec_receiveCadence_closed (hnew : s.newClash p) : t.adj.list = [] := by
  have hheard := s.takeNotice_heard p
  have hlist : (s.takeNotice p).adj.list = [] := by rw [hheard.list, if_pos hnew]
  have hclosed := State.hearCadence_closed hlist n d
  rw [exec_receiveCadence_eq hincoming] at hexec
  obtain rfl := Host.Outcome.next.inj hexec
  rw [(State.finishOffers_closed hclosed .none).blocks .adj (by decide)]
  exact hclosed

end Cadence

/-- The queue after a clash and a change of number, whichever of the two withdraws (R17, R122). -/
theorem queue_withdrawn_unless {α : Type} {clash : Bool} {kept : Prop} [Decidable kept] (q w : α) :
    (if kept then (if clash = false then w else q) else w) = if clash = true ∧ kept then q else w := by
  cases clash <;> by_cases h : kept <;> simp [h]

/-! ### The statement -/

/-- Settles O50: the clash is heard first, and the notice then has the effect of its kind. -/
theorem clashTriggered : Obligations.ClashTriggered := by
  unfold Obligations.ClashTriggered
  refine ⟨fun s notice c hincoming _ hkind => ?kinds, fun s n d f g still begun hincoming hstill hbegun => ?cadence⟩
  case kinds =>
    obtain ⟨t, hexec, heffect⟩ := exec_receive_own hincoming hkind
    refine ⟨s.takeOther s.position, t, hexec, s.takeOther_frame _, s.takeOther_own_neighbours, s.takeOther_own_set, fun hclash => ?_,
      heffect.still, heffect.call, heffect.verdict, heffect.settlement, fun x i hcall => ?_⟩
    · obtain ⟨hadj, hline⟩ := s.takeOther_own_new hclash
      rw [hline]
      exact ⟨hadj, rfl, fun q hq => s.mem_queueWithdrawn hq⟩
    · obtain ⟨hother, hown⟩ := heffect.journalCall x i hcall
      refine ⟨hother, fun htarget room => ?_⟩
      have hanswer := hown htarget room
      rw [hanswer _ rfl]
      refine ⟨State.alarmMoved_frame _ _, rfl, rfl, ?_⟩
      rintro j rfl
      exact ⟨s.alarm.cursorAfter_eq _, rfl⟩
  case cadence =>
    have hheard : s.heardFrom s.position = still := (if_pos rfl).trans hstill.symm
    have hcounted : s.counted (s.heardFrom s.position) = begun := by
      rw [hheard, State.counted, State.countSilence_eq, hbegun, hstill]
      rfl
    have hnew : s.newClash s.position ↔ s.neighbours.clash = false := and_iff_right rfl
    obtain ⟨t, hexec, hframe⟩ := moves_mayChange .receiveCadence s
    refine ⟨t, hexec, hframe, exec_receiveCadence_rx hincoming hexec,
      fun hclash => exec_receiveCadence_closed hincoming hexec ⟨rfl, hclash⟩, fun hunpaired => ?_,
      fun b place zero hbreak hpaired hplace hzero => ⟨fun hjoin _ => ?_, fun m e dd hjoin _ he hnear hfar => ?_⟩⟩
    · obtain ⟨u, hu, hsame⟩ := exec_receiveCadence_ignored hincoming (.inl hunpaired)
      obtain rfl := Host.Outcome.next.inj (hexec.symm.trans hsame)
      refine ⟨hu.ignores.neighbours.trans hheard, hu.ignores.cadence, fun hquiet => ?_⟩
      obtain ⟨hstays, hadj, hline⟩ := hu.ignores.quiet hquiet
      refine ⟨hstays, fun hclash => ?_, fun hclash => ?_⟩
      · rw [hadj, hline, if_neg (by simp [hnew, hclash]), if_neg (by simp [hnew, hclash])]
        exact ⟨rfl, rfl⟩
      · rw [hadj, hline, if_pos (hnew.2 hclash), if_pos (hnew.2 hclash)]
        exact ⟨rfl, rfl, fun q hq => s.mem_queueWithdrawn hq⟩
    · obtain ⟨u, hu, hsame⟩ := exec_receiveCadence_listening hincoming hbreak hpaired hjoin
      obtain rfl := Host.Outcome.next.inj (hexec.symm.trans hsame)
      have hjoins := State.numbered_joins hu n (d.toNat + 3 + s.ticksSince b)
      refine ⟨hjoins.startup, ?_, ?_, fun hquiet hposition => ?_⟩
      · rw [hjoins.cadence, hzero, hplace]
        rfl
      · rw [hjoins.neighbours, hu.neighbours]
        exact hcounted
      · rw [hjoins.line (by rw [hu.line]; exact hquiet) hposition, hu.withdrawn, hu.line]
        simp only [hnew, queue_withdrawn_unless]
    · by_cases hrefused : 32767 < (n - m).toNat
      · obtain ⟨u, hu, hsame⟩ := exec_receiveCadence_refused hincoming hbreak hpaired hjoin he hnear hfar hrefused
        obtain rfl := Host.Outcome.next.inj (hexec.symm.trans hsame)
        have hignores := hu.ignores
        have hnot : ¬(n - m).toNat ≤ 32767 := Nat.not_le.2 hrefused
        refine ⟨hignores.frame.blocks .startup (by decide), fun hquiet _ => ?_,
          fun _ => ⟨hignores.neighbours.trans hheard, hignores.cadence, hignores.frame.blocks .field (by decide),
            hignores.frame.blocks .lane (by decide)⟩, fun h => absurd h hnot, fun h => absurd h hnot, fun h => absurd h hnot,
          fun h => absurd h hnot⟩
        obtain ⟨-, -, hline⟩ := hignores.quiet hquiet
        rw [hline]
        simp only [hnew, ← queue_withdrawn_unless, if_pos (Or.inr hrefused : n = m ∨ 32767 < (n - m).toNat)]
      · have hqualifies := Nat.not_lt.1 hrefused
        obtain ⟨u, v, w, hu, hv, hsame, hw⟩ :=
          exec_receiveCadence_qualifies hincoming hbreak hpaired hjoin he hnear hfar hqualifies
        obtain rfl := Host.Outcome.next.inj (hexec.symm.trans hsame)
        refine ⟨(State.recorded_frame hu hv hw).blocks .startup (by decide), fun hquiet hposition => ?_, fun h => absurd h hrefused,
          fun _ hlow hhigh => ?_, fun _ hlow hhigh hzero k hk => ?_, fun _ hbegins => ?_, fun _ hn => ?_⟩
        · rw [State.recorded_line hu hv hw hquiet hposition, hu.line]
          simp only [hnew, hrefused, or_false, queue_withdrawn_unless]
        · obtain ⟨hneighbours, hfield, hunit⟩ := hw.stands hu (hv.trans (s.recorded_kept u n m b d hlow hhigh))
          exact ⟨hneighbours.trans hheard, hfield, hunit⟩
        · rw [hplace] at hk
          obtain ⟨hneighbours, hfield, hunit⟩ := hw.stands hu (hv.trans (s.recorded_moved u n m b d hlow hhigh hzero hk))
          exact ⟨hneighbours.trans hheard, hfield, hunit⟩
        · obtain ⟨hneighbours, hfield, hunit⟩ := hw.begins hu hjoin hbegins hv
          rw [hfield, hunit, hzero, hplace]
          exact ⟨hneighbours.trans hcounted, rfl, rfl, s.field.beginFrame_drive _⟩
        · obtain ⟨hsightings, hadj⟩ := hw.emptied hn
          rw [hadj]
          exact ⟨hsightings, rfl, rfl, State.recorded_lane hu hv hw hn⟩

end Sys2Proof.Machine
end
